-- ==== Sys2Proof/Word.lean ====
section
/-! DEFINITION. The word types of the RC-2023 link engine (spec/00_scope.md R13): a byte is eight bits, bit 7 the most
significant, every value unsigned; a sequence number is one bit. -/

namespace Sys2Proof

/-- One byte of the channel, of a frame or of a buffer (R13, R74: the only access width is 8 bits). -/
abbrev Byte := BitVec 8

/-- A one-bit sequence number: NEXT_SEQ, EXPECTED_SEQ, RX_SEQ (R27, R28, R38). -/
abbrev SeqBit := BitVec 1

end Sys2Proof
end

