-- ==== Sys2Proof/Syntax.lean ====
section
/-! DEFINITION. The instruction set of the link engine: the nine wire frame kinds and the four host commands
(spec/opcode_table.json, 13 rows), the frame as data, the host's command record, and the names the codec and the host port use. -/

namespace Sys2Proof

/-- The role latched at OPEN (R22): 0 Initiator, 1 Responder. -/
inductive Role where
  | initiator
  | responder
deriving DecidableEq, Repr, Inhabited

/-- The result codes a command can end with (R42, R300); the numbers are those of `resultCode`. -/
inductive Result where
  | ok
  | connectFailed
  | maxRetriesExceeded
  | channelError
  | badCommand
deriving DecidableEq, Repr, Inhabited

/-- The configuration record of OPEN (R11, R67): all six fields come with every OPEN. -/
structure OpenConfig where
  role : Role
  channelIdentifier : Nat
  speed : Nat
  retryLimit : Nat
  timeoutDuration : Nat
  maxPayloadSize : Nat
deriving DecidableEq, Repr

/-- One constructor per row of spec/opcode_table.json. A frame is the instruction the peer's bytes carry to the block;
its address byte is ADDR in every row (R10) and its checksums are functions of the other fields (R129).
The sequence bit is part of the kind, as the table has it (I0 and I1, RR0 and RR1, REJ0 and REJ1). -/
inductive Instr where
  /-- SET, R194 -/
  | setFrame
  /-- UA, R195 -/
  | uaFrame
  /-- DISC, R196 -/
  | discFrame
  /-- I0, R227: the payload is raw, before stuffing -/
  | i0Frame (payload : List Byte)
  /-- I1, R228 -/
  | i1Frame (payload : List Byte)
  /-- RR0 = ACK(0), R264 -/
  | rr0Frame
  /-- RR1 = ACK(1), R265 -/
  | rr1Frame
  /-- REJ0 = NACK(0), R266 -/
  | rej0Frame
  /-- REJ1 = NACK(1), R267 -/
  | rej1Frame
  /-- OPEN, R180 -/
  | openCmd (config : OpenConfig)
  /-- SEND, R220: `len` is the length of the data -/
  | sendCmd (data : List Byte)
  /-- RECEIVE, R250 -/
  | receiveCmd
  /-- CLOSE, R187 -/
  | closeCmd
deriving DecidableEq, Repr

/-- The kind a control byte names (R129); the two I, RR and REJ kinds carry their bit. -/
inductive Kind where
  | set
  | ua
  | disc
  | info (s : SeqBit)
  | rr (s : SeqBit)
  | rej (s : SeqBit)
deriving DecidableEq, Repr

/-- A frame as data (R129): header, and a payload for an I kind, absent for a supervisory kind. -/
structure Frame where
  address : Byte
  control : Byte
  payload : Option (List Byte)
deriving DecidableEq, Repr

/-- The three verdicts of the pure decoder that are not a frame (R127, R305 to R307). -/
inductive DecodeError where
  | badChecksum
  | framingError
  | incomplete
deriving DecidableEq, Repr

/-- Why bytes are no instruction: the codec's own verdict, or a frame the recognizers would not take because its
address is not ADDR (R100; `Decode` itself does not compare the address, R127). -/
inductive Reject where
  | codec (e : DecodeError)
  | wrongAddress
deriving DecidableEq, Repr

/-- The command record at the host port (R67, R101): the 2-bit code and the fields of all four commands side by side; a
command reads only its own. `len` of SEND is the length of `data`. -/
structure CmdRecord where
  code : BitVec 2
  config : OpenConfig
  data : List Byte
deriving DecidableEq, Repr

/-- An instruction as it stands outside the block: bytes on the wire, or a record at the command port. -/
inductive Encoded where
  | wire (bytes : List Byte)
  | command (r : CmdRecord)
deriving DecidableEq, Repr

/-- True of the nine frame kinds, false of the four commands. -/
def Instr.isFrame : Instr → Bool
  | .setFrame => true
  | .uaFrame => true
  | .discFrame => true
  | .i0Frame _ => true
  | .i1Frame _ => true
  | .rr0Frame => true
  | .rr1Frame => true
  | .rej0Frame => true
  | .rej1Frame => true
  | .openCmd _ => false
  | .sendCmd _ => false
  | .receiveCmd => false
  | .closeCmd => false

end Sys2Proof
end

