-- ==== Sys2Proof/Config.lean ====
section
/-! DEFINITION. What an implementation fixes and the spec leaves open (R12, spec/93_implementation_defined.md U7, U8), as
constants with no body: nothing can be proved about which value they have. -/

namespace Sys2Proof

/-- BUF_SIZE (R12): the capacity of TXBUF in bytes; RXBUF holds one more. It is the value State.reset carries as the
instance's parameter (`Machine.State.bufSize`). -/
opaque Config.bufSize : Nat

/-- How much wider than needed the length registers are built; see `Config.lenW`. -/
opaque Config.lenSlack : Nat

/-- LEN_W (R12), derived from BUF_SIZE so that 2^LEN_W > BUF_SIZE + 1. -/
def Config.lenW : Nat := Nat.log2 (Config.bufSize + 1) + 1 + Config.lenSlack

/-- RETRY_W (R12): the width of CFG_RETRY_LIMIT; RETRY_COUNT is one bit wider. -/
opaque Config.retryW : Nat

/-- TIMEOUT_W (R12): the width of CFG_TIMEOUT and TIMER_REMAINING. -/
opaque Config.timeoutW : Nat

/-- CHID_W (R12): the width of the opaque channelIdentifier. -/
opaque Config.chidW : Nat

/-- SPEED_W (R12): the width of the opaque speed. -/
opaque Config.speedW : Nat

/-- The registers a Reset leaves unspecified (R45, R350): one draw for each of them. -/
structure Unspecified where
  recCtrl : Byte
  timerRemaining : Nat
  rxLen : Nat
  rxSeq : SeqBit
  rxXor : Byte
  cfgRole : Role
  cfgRetryLimit : Nat
  cfgTimeout : Nat
  cfgMaxPayload : Nat
  cfgChannelId : Nat
  cfgSpeed : Nat
  txLen : Nat
  result : Result
  resultRetries : Nat
  resultLen : Nat
deriving DecidableEq, Repr, Inhabited

/-- FREE VALUE (U7, R350): what the unspecified registers hold after an instance's n-th Reset event. DESIGN CHOICE
(notes/assumptions/7.md): it depends on n alone, so two instances with equal counts draw equal values. -/
opaque Config.unspecified : Nat → Unspecified

/-- FREE VALUE (R40, U7): what a byte of TXBUF holds that nothing has written since the n-th Reset event. -/
opaque Config.unwrittenTx : Nat → Nat → Byte

/-- FREE VALUE (R41, U7): what a byte of RXBUF holds that nothing has written since the n-th Reset event. -/
opaque Config.unwrittenRx : Nat → Nat → Byte

/-- FREE VALUE (R41, U7): what the host reads at an index of RXBUF that holds no value for it, after the n-th Reset event and
with these stored bytes. -/
opaque Config.unheldRx : Nat → List (Nat × Byte) → Nat → Byte

end Sys2Proof
end

