-- ==== Sys2Proof/WellFormed.lean ====
section
/-! DEFINITION. Well-formed instructions: every operand fits the field that carries it (R12, R22 to R24, opcode_table.json). -/

namespace Sys2Proof

/-- The six fields of OPEN fit their widths (R11, R12). The role has no check of its own: one bit, two values. -/
def OpenConfig.fits (c : OpenConfig) : Prop :=
  c.channelIdentifier < 2 ^ Config.chidW ∧ c.speed < 2 ^ Config.speedW ∧ c.retryLimit < 2 ^ Config.retryW ∧
    c.timeoutDuration < 2 ^ Config.timeoutW ∧ c.maxPayloadSize < 2 ^ Config.lenW

/-- A command's operands fit the fields of its record (R12). A frame has no operand but an I-frame's payload, and the wire
carries a payload of any length (R102): every frame is well-formed. -/
def Instr.WellFormed : Instr → Prop
  | .setFrame => True
  | .uaFrame => True
  | .discFrame => True
  | .i0Frame _ => True
  | .i1Frame _ => True
  | .rr0Frame => True
  | .rr1Frame => True
  | .rej0Frame => True
  | .rej1Frame => True
  | .openCmd c => c.fits
  | .sendCmd data => data.length < 2 ^ Config.lenW
  | .receiveCmd => True
  | .closeCmd => True

end Sys2Proof
end

