-- ==== Sys2Proof/Decode.lean ====
section
/-! DEFINITION. The Frame Codec (spec/40_frame_codec.md), the decoder of instructions, total on any bytes and rejecting by
name, and after it the encoder. The codec is combinational: pure functions on bytes and byte lists. -/

namespace Sys2Proof

/-! The wire constants (R10). -/

def TERM : Byte := 0x7E
def ESC : Byte := 0x7D
def STUFF_XOR : Byte := 0x20
def ADDR : Byte := 0x03
def C_SET : Byte := 0x03
def C_UA : Byte := 0x07
def C_DISC : Byte := 0x0B

/-- `zext_8(s) << 7`: the sequence bit in bit 7 of a control byte (R93). -/
def seqField (s : SeqBit) : Byte := s.zeroExtend 8 <<< 7

/-- C_I(s) (R93): 0x00, 0x80. -/
def C_I (s : SeqBit) : Byte := seqField s

/-- C_RR(s) (R93): 0x05, 0x85. -/
def C_RR (s : SeqBit) : Byte := 0x05 ||| seqField s

/-- C_REJ(s) (R93): 0x01, 0x81. -/
def C_REJ (s : SeqBit) : Byte := 0x01 ||| seqField s

/-- Bit 7 of a control byte (R38: `RX_SEQ <- REC_CTRL[7]`). -/
def seqOf (c : Byte) : SeqBit := c.extractLsb' 7 1

/-! ### Checksums -/

/-- XorFold (R122): the exclusive-or of all bytes, 0x00 for the empty list. -/
def xorFold : List Byte → Byte
  | [] => 0x00
  | b :: r => b ^^^ xorFold r

/-- Bcc1 (R123). -/
def bcc1 (a c : Byte) : Byte := a ^^^ c

/-! ### Stuffing -/

/-- Stuff (R120): one raw byte to one or two wire bytes. -/
def stuff (b : Byte) : List Byte := if b = TERM ∨ b = ESC then [ESC, b ^^^ STUFF_XOR] else [b]

/-- StuffList (R120). -/
def stuffList : List Byte → List Byte
  | [] => []
  | b :: r => stuff b ++ stuffList r

/-- DestuffList (R121) on wire bytes that hold no TERM: an ESC is dropped and the byte after it exclusive-ored with 0x20,
whatever it is; an ESC with nothing after it is a FramingError. -/
def destuffList : List Byte → Except DecodeError (List Byte)
  | [] => .ok []
  | b :: r =>
    if b = ESC then
      match r with
      | [] => .error .framingError
      | x :: r' =>
        match destuffList r' with
        | .ok d => .ok ((x ^^^ STUFF_XOR) :: d)
        | .error e => .error e
    else
      match destuffList r with
      | .ok d => .ok (b :: d)
      | .error e => .error e

/-! ### Frame kinds -/

/-- Kind (R98, R129): by the whole control byte; `none` is Reserved (R99). -/
def kind (c : Byte) : Option Kind :=
  if c = 0x03 then some .set
  else if c = 0x07 then some .ua
  else if c = 0x0B then some .disc
  else if c = 0x00 then some (.info 0)
  else if c = 0x80 then some (.info 1)
  else if c = 0x05 then some (.rr 0)
  else if c = 0x85 then some (.rr 1)
  else if c = 0x01 then some (.rej 0)
  else if c = 0x81 then some (.rej 1)
  else none

/-- IsI (R129): the two I control bytes. -/
def isI (c : Byte) : Bool := c == 0x00 || c == 0x80

/-! ### Encoding of frames -/

/-- EncodeS (R124): always five bytes, nothing stuffed. -/
def encodeS (a c : Byte) : List Byte := [TERM, a, c, bcc1 a c, TERM]

/-- EncodeI (R125): the header raw, payload and BCC2 stuffed. -/
def encodeI (a c : Byte) (p : List Byte) : List Byte :=
  [TERM, a, c, bcc1 a c] ++ stuffList p ++ stuff (xorFold p) ++ [TERM]

/-- The document's one-signature `encode`, refused (`none`) outside the nine kinds at ADDR (R126, U5, U6): a reserved control
byte, another address, a payload on a supervisory kind, or none on an I kind. -/
def encodeCall (a c : Byte) (p : Option (List Byte)) : Option (List Byte) :=
  if a = ADDR then
    match kind c, p with
    | some (.info _), some q => some (encodeI a c q)
    | some (.info _), none => none
    | some _, none => some (encodeS a c)
    | some _, some _ => none
    | none, _ => none
  else none

/-! ### Decoding of frames (R127) -/

/-- The bytes after the leading TERMs. -/
def skipTerms : List Byte → List Byte
  | [] => []
  | b :: r => if b = TERM then skipTerms r else b :: r

/-- The bytes before the first TERM and the bytes after it; `none` when there is no TERM. -/
def splitTerm : List Byte → Option (List Byte × List Byte)
  | [] => none
  | b :: r =>
    if b = TERM then some ([], r)
    else
      match splitTerm r with
      | some (body, rest) => some (b :: body, rest)
      | none => none

/-- The verdict on the destuffed body of an I-frame (R127): its last byte is BCC2 and no part of the payload. -/
def checkBody (a c : Byte) (d : List Byte) : Except DecodeError Frame :=
  match d.getLast? with
  | none => .error .framingError
  | some bcc2 => if xorFold d.dropLast = bcc2 then .ok ⟨a, c, some d.dropLast⟩ else .error .badChecksum

/-- The verdict on header and body once the closing TERM is found (R127). -/
def checkFrame (a c : Byte) (body : List Byte) : Except DecodeError Frame :=
  if isI c then
    match destuffList body with
    | .error e => .error e
    | .ok d => checkBody a c d
  else if body = [] then .ok ⟨a, c, none⟩ else .error .framingError

/-- Decode (R127) with the bytes it did not examine, those after the closing TERM: the first verdict from left to right. -/
def decodeFrame (w : List Byte) : Except DecodeError (Frame × List Byte) :=
  match w with
  | [] => .error .incomplete
  | b :: _ =>
    if b ≠ TERM then .error .framingError
    else
      match skipTerms w with
      | a :: c :: k :: r =>
        if k ≠ bcc1 a c then .error .badChecksum
        else if kind c = none then .error .framingError
        else
          match splitTerm r with
          | none => .error .incomplete
          | some (body, rest) =>
            match checkFrame a c body with
            | .ok f => .ok (f, rest)
            | .error e => .error e
      | _ => .error .incomplete

/-- Decode (R127). -/
def decodeBytes (w : List Byte) : Except DecodeError Frame :=
  match decodeFrame w with
  | .ok (f, _) => .ok f
  | .error e => .error e

/-! ### Instructions -/

/-- The instruction a decoded frame is (R98, R129): its address must be ADDR (R100), its payload present exactly for an I
kind. -/
def Frame.toInstr (f : Frame) : Except Reject Instr :=
  if f.address ≠ ADDR then .error .wrongAddress
  else
    match kind f.control, f.payload with
    | some .set, none => .ok .setFrame
    | some .ua, none => .ok .uaFrame
    | some .disc, none => .ok .discFrame
    | some (.info s), some p => .ok (if s = 0 then .i0Frame p else .i1Frame p)
    | some (.rr s), none => .ok (if s = 0 then .rr0Frame else .rr1Frame)
    | some (.rej s), none => .ok (if s = 0 then .rej0Frame else .rej1Frame)
    | _, _ => .error (.codec .framingError)

/-- The instruction at the front of a byte stream, and the bytes after its closing TERM. -/
def decodeStream (w : List Byte) : Except Reject (Instr × List Byte) :=
  match decodeFrame w with
  | .error e => .error (.codec e)
  | .ok (f, rest) =>
    match f.toInstr with
    | .ok i => .ok (i, rest)
    | .error e => .error e

/-- The command a record at the host port asks for (R101): every code names one. -/
def decodeCommand (r : CmdRecord) : Instr :=
  if r.code = 0 then .openCmd r.config
  else if r.code = 1 then .sendCmd r.data
  else if r.code = 2 then .receiveCmd
  else .closeCmd

/-- The decoder: total on any bytes and on any command record. -/
def decode : Encoded → Except Reject Instr
  | .wire w =>
    match decodeStream w with
    | .ok (i, _) => .ok i
    | .error e => .error e
  | .command r => .ok (decodeCommand r)

/-! ### The encoder -/

/-- A configuration record of zeros: the fields of a command record that its command does not read. -/
def OpenConfig.zero : OpenConfig := ⟨.initiator, 0, 0, 0, 0, 0⟩

/-- The wire bytes of a frame instruction (R98); a command has none. -/
def encodeWire : Instr → List Byte
  | .setFrame => encodeS ADDR C_SET
  | .uaFrame => encodeS ADDR C_UA
  | .discFrame => encodeS ADDR C_DISC
  | .i0Frame p => encodeI ADDR (C_I 0) p
  | .i1Frame p => encodeI ADDR (C_I 1) p
  | .rr0Frame => encodeS ADDR (C_RR 0)
  | .rr1Frame => encodeS ADDR (C_RR 1)
  | .rej0Frame => encodeS ADDR (C_REJ 0)
  | .rej1Frame => encodeS ADDR (C_REJ 1)
  | .openCmd _ => []
  | .sendCmd _ => []
  | .receiveCmd => []
  | .closeCmd => []

/-- The record of an OPEN (R101: code 0). -/
def openRecord (c : OpenConfig) : CmdRecord := ⟨0, c, []⟩

/-- The record of a SEND (R101: code 1). -/
def sendRecord (data : List Byte) : CmdRecord := ⟨1, .zero, data⟩

/-- The record of a RECEIVE (R101: code 2). -/
def receiveRecord : CmdRecord := ⟨2, .zero, []⟩

/-- The record of a CLOSE (R101: code 3). -/
def closeRecord : CmdRecord := ⟨3, .zero, []⟩

/-- The encoder: the words of an instruction. -/
def encode : Instr → Encoded
  | .setFrame => .wire (encodeWire .setFrame)
  | .uaFrame => .wire (encodeWire .uaFrame)
  | .discFrame => .wire (encodeWire .discFrame)
  | .i0Frame p => .wire (encodeWire (.i0Frame p))
  | .i1Frame p => .wire (encodeWire (.i1Frame p))
  | .rr0Frame => .wire (encodeWire .rr0Frame)
  | .rr1Frame => .wire (encodeWire .rr1Frame)
  | .rej0Frame => .wire (encodeWire .rej0Frame)
  | .rej1Frame => .wire (encodeWire .rej1Frame)
  | .openCmd c => .command (openRecord c)
  | .sendCmd data => .command (sendRecord data)
  | .receiveCmd => .command receiveRecord
  | .closeCmd => .command closeRecord

/-! ### The opcode table's words

The table numbers a frame by its control byte (8 bits) and a command by its code (2 bits). -/

/-- The whole frame a control byte stands for with an empty payload (the table's operand bits are zero). -/
def frameOfControl (c : Byte) : List Byte := if isI c then encodeI ADDR c [] else encodeS ADDR c

/-- The command record a code stands for with every operand zero. -/
def recordOfCode (code : BitVec 2) : CmdRecord := ⟨code, .zero, []⟩

/-- What a table word lays out: a word of at most 2 bits is a command code; a wider word is a control byte, and one that the
control bytes reserve but that fits the 2-bit code is the command code (RECEIVE alone: 0, 1 and 3 are I0, REJ0 and SET). -/
def tableWord (nbits w : Nat) : Encoded :=
  if nbits ≤ 2 then .command (recordOfCode (BitVec.ofNat 2 w))
  else if w < 256 then
    if kind (BitVec.ofNat 8 w) = none ∧ w < 4 then .command (recordOfCode (BitVec.ofNat 2 w))
    else .wire (frameOfControl (BitVec.ofNat 8 w))
  else .wire []

/-- The instruction the decoder reads from a table word; none where it refuses. -/
def decodeTableWord (nbits w : Nat) : Option Instr :=
  match decode (tableWord nbits w) with
  | .ok i => some i
  | .error _ => none

end Sys2Proof
end

