-- ==== Sys2Proof/Machine/State.lean ====
section
/-! DEFINITION. The state of one instance of the block (spec/10_state.md), the part of its environment that one instance
sees (the two byte streams, the command port, the environment's choices), the ways a step can stop, and the state after reset. -/

namespace Sys2Proof.Machine

/-- CONN_STATE (R26): 0 Closed, 1 Connecting, 2 Open, 3 Closing. -/
inductive ConnState where
  | closed
  | connecting
  | opened
  | closing
deriving DecidableEq, Repr

/-- PHASE (R30): what the block is waiting for, numbered 0 to 7 in this order. -/
inductive Phase where
  | idle
  | openIWaitUa
  | openRWaitSet
  | sendWaitReply
  | recv
  | closeIWaitDisc
  | closeRWaitDisc
  | closeRWaitUa
deriving DecidableEq, Repr

/-- REC_STATE (R31), numbered 0 to 6 in this order. -/
inductive RecState where
  | idle
  | termSeen
  | addrSeen
  | ctrlSeen
  | bccSeen
  | body
  | done
deriving DecidableEq, Repr

/-- A byte-indexed buffer: (index, byte) pairs with strictly rising indices. An index that is not listed holds no value
(R40, R41), so no entry is superfluous and equal buffers are equal lists. -/
abbrev Memory := List Host.Cell

/-- The position of the next byte in the triplet that follows a frame's opening TERM (R291); the BCC1 position carries the
control byte that passed. -/
inductive HeaderPos where
  | address
  | control
  | bcc (control : Byte)
deriving DecidableEq, Repr

/-- The optional Bit-Error Channel on the receive path (spec/45_test_channel.md): the draws the environment has made
and not yet used, and the frame in flight. -/
structure TestChannel where
  /-- one draw a frame: none a miss, some k the bit k of the 24 header bits (R291) -/
  frameDraws : List (Option (Fin 24))
  /-- one draw a byte delivered in Body: none a miss, some j the bit j of the byte (R292) -/
  byteDraws : List (Option (Fin 8))
  /-- the draw of the frame in flight -/
  hit : Option (Fin 24)
  /-- where the next byte stands in the triplet; none outside it -/
  pos : Option HeaderPos
deriving DecidableEq, Repr

/-- What the environment does next (R15, R60): the five event kinds of the block, and what the environment does by itself to
the streams and the port it owns (R61, R68, R317). A byte of `rx` is the oldest of RXQ and a command of `cmd` the oldest at
the port, so an event that is not enabled leaves its byte or its command where it is. -/
inductive Event where
  /-- Reset (R350) -/
  | reset
  /-- Cmd(c): the host's oldest waiting command is offered (R68) -/
  | cmd
  /-- Rx(b): the oldest byte of RXQ is handed over (R63) -/
  | rx
  /-- the bytes of the frame at the front of RXQ, handed over one after the other with no other event between them -/
  | frame
  /-- Tick (R66) -/
  | tick
  /-- ChErr (R65) -/
  | chErr
  /-- the host puts a command record at the port, behind those that wait (notes/assumptions/20.md) -/
  | present (r : CmdRecord)
  /-- the channel makes RXQ hold these bytes: arrival, loss, alteration, insertion (R61) -/
  | line (q : List Byte)
  /-- the channel takes the n oldest bytes of TXQ away -/
  | drain (n : Nat)
  /-- the channel's choice for the next write: none it succeeds, some n it fails after n bytes (R317) -/
  | writeFate (f : Option Nat)
deriving DecidableEq, Repr

/-- The state. The first four groups are the block's registers (spec/10_state.md); the last three are not registers: the
environment's side of the boundary, the instance's parameter, and the model's own counter. -/
structure State where
  /-- CFG_ROLE, R22 -/
  cfgRole : Role
  /-- CFG_RETRY_LIMIT, R23 -/
  cfgRetryLimit : Nat
  /-- CFG_TIMEOUT, R23, in ticks -/
  cfgTimeout : Nat
  /-- CFG_MAX_PAYLOAD, R23 -/
  cfgMaxPayload : Nat
  /-- CFG_CHANNEL_ID, R24: stored, never read by a rule -/
  cfgChannelId : Nat
  /-- CFG_SPEED, R24: stored, never read by a rule -/
  cfgSpeed : Nat
  /-- CONN_STATE, R26 -/
  connState : ConnState
  /-- NEXT_SEQ, R27 -/
  nextSeq : SeqBit
  /-- EXPECTED_SEQ, R28 -/
  expectedSeq : SeqBit
  /-- PHASE, R30 -/
  phase : Phase
  /-- REC_STATE, R31 -/
  recState : RecState
  /-- REC_CTRL, R32 -/
  recCtrl : Byte
  /-- RETRY_COUNT, R33 -/
  retryCount : Nat
  /-- TIMER_ARMED, R34 -/
  timerArmed : Bool
  /-- TIMER_REMAINING, R34 -/
  timerRemaining : Nat
  /-- RX_ESC, R35 -/
  rxEsc : Bool
  /-- RX_OVF, R36 -/
  rxOvf : Bool
  /-- RX_LEN, R37 -/
  rxLen : Nat
  /-- RX_SEQ, R38 -/
  rxSeq : SeqBit
  /-- RX_XOR, R39 -/
  rxXor : Byte
  /-- TXBUF, R40: indices 0 to BUF_SIZE - 1 -/
  txBuf : Memory
  /-- TX_LEN, R40 -/
  txLen : Nat
  /-- RXBUF, R41: indices 0 to BUF_SIZE -/
  rxBuf : Memory
  /-- RESULT_VALID, R42 -/
  resultValid : Bool
  /-- RESULT, R42 -/
  result : Result
  /-- RESULT_RETRIES, R42 -/
  resultRetries : Nat
  /-- RESULT_LEN, R42 -/
  resultLen : Nat
  /-- TXQ, R61, R79: the bytes sent and not yet taken away by the channel, oldest first -/
  txq : List Byte
  /-- RXQ, R61, R79: the bytes that wait to be consumed, oldest first -/
  rxq : List Byte
  /-- the commands that wait at the host port (R68). DESIGN CHOICE (notes/assumptions/20.md): any number of them may wait, and
  they are taken oldest first; the spec speaks of one waiting command. -/
  port : List CmdRecord
  /-- the events to come, as the environment has chosen them (R60) -/
  agenda : List Event
  /-- the channel's choice for the next write (R317) -/
  writeFate : Option Nat
  /-- the optional test channel; none leaves the raw channel (R8, R290) -/
  testChannel : Option TestChannel
  /-- BUF_SIZE of this instance (R12): a parameter, written by nothing -/
  bufSize : Nat
  /-- how many Reset events have been taken: the index of the free values of an unspecified register (R350, U7;
  notes/assumptions/7.md) -/
  draws : Nat
deriving DecidableEq, Repr

/-- Why a step stops with a fault. -/
inductive Fault where
  /-- An access to TXBUF at an index of BUF_SIZE or more, or to RXBUF at an index above BUF_SIZE: the buffer has no such byte
  (R40, R41). Raised by the buffer operations of Machine/Ops.lean. Safe: no state that meets the invariant `Inv` of
  Sys2Proof/Safety.lean reaches it, since CFG_MAX_PAYLOAD is at most BUF_SIZE (R23). -/
  | bufferIndex
deriving DecidableEq, Repr

/-- Why a step is refused. -/
inductive Refusal where
  /-- An instruction that has no meaning yet, by its mnemonic: raised by an arm of `exec` only. Safe. No arm raises it. -/
  | notModelled (mnemonic : String)
deriving DecidableEq, Repr

/-- The machine right after reset (R45). CONN_STATE, PHASE, REC_STATE, NEXT_SEQ, EXPECTED_SEQ, RETRY_COUNT, TIMER_ARMED,
RX_ESC, RX_OVF and RESULT_VALID are the spec's values. DESIGN CHOICE (notes/assumptions/1.md): every register the spec leaves
unspecified is zero here, or the first of its names, and the buffers hold no value; the environment offers nothing yet. -/
def State.reset : State where
  cfgRole := .initiator
  cfgRetryLimit := 0
  cfgTimeout := 0
  cfgMaxPayload := 0
  cfgChannelId := 0
  cfgSpeed := 0
  connState := .closed
  nextSeq := 0
  expectedSeq := 0
  phase := .idle
  recState := .idle
  recCtrl := 0
  retryCount := 0
  timerArmed := false
  timerRemaining := 0
  rxEsc := false
  rxOvf := false
  rxLen := 0
  rxSeq := 0
  rxXor := 0
  txBuf := []
  txLen := 0
  rxBuf := []
  resultValid := false
  result := .ok
  resultRetries := 0
  resultLen := 0
  txq := []
  rxq := []
  port := []
  agenda := []
  writeFate := none
  testChannel := none
  bufSize := Config.bufSize
  draws := 0

end Sys2Proof.Machine
end

