-- ==== Sys2Proof/Machine/Flags.lean ====
section
/-! DEFINITION. The one-bit and comparison results the rules compute: the sequence bits, the timer's expiry, the retry
limit, and the receiver's end-of-frame checks. -/

namespace Sys2Proof.Machine

/-- `s <- 1 - s` (R131). -/
def flipSeq (s : SeqBit) : SeqBit := 1 - s

/-- AckBit (R222, C1): the bit a reply to I(s) names. Both ends use it. -/
def ackBit (s : SeqBit) : SeqBit := s

/-- The next tick exhausts the timer (R321); a timeout of 0 behaves as 1. -/
def State.timerExpires (s : State) : Bool := decide (s.timerRemaining ≤ 1)

/-- RETRY_COUNT exceeds CFG_RETRY_LIMIT (R183, R190, R226). -/
def State.retriesExhausted (s : State) : Bool := decide (s.cfgRetryLimit < s.retryCount)

/-- RX_ESC after a body byte that RX_ESC = 0 leaves in Body (R254, R255): set by an ESC. -/
def escAfter (b : Byte) : Bool := decide (b = ESC)

/-- There is room for one more destuffed byte, payload or BCC2 (R254). -/
def State.rxHasRoom (s : State) : Bool := decide (s.rxLen ≤ s.cfgMaxPayload)

/-- The frame is too long or has no BCC2 byte at all (R259). -/
def State.bodyMalformed (s : State) : Bool := s.rxOvf || decide (s.rxLen = 0)

/-- The payload's fold is the received BCC2 (R259). -/
def bcc2Matches (p : List Byte) (bcc2 : Byte) : Bool := decide (xorFold p = bcc2)

/-- The frame carries the bit already accepted (R261). -/
def State.isDuplicate (s : State) : Bool := decide (s.rxSeq ≠ s.expectedSeq)

end Sys2Proof.Machine
end

