-- ==== Sys2Proof/Machine/Operands.lean ====
section
/-! DEFINITION. The operand forms of the rules: the keys of the recognizer, the frames the block sends, the preconditions of
the commands, and the numbers of the enumerated registers. -/

namespace Sys2Proof.Machine

/-! ### Keys (R159) -/

/-- The key of the phases that await UA. -/
def keyUa : List Byte := [C_UA]

/-- The key of the phase that awaits SET. -/
def keySet : List Byte := [C_SET]

/-- The key of the phases that await DISC. -/
def keyDisc : List Byte := [C_DISC]

/-- The key of the sender (R222): ACK and NACK of the frame in flight. -/
def keyReply (s : SeqBit) : List Byte := [C_RR (ackBit s), C_REJ (ackBit s)]

/-- The key of the receiver (R251): both I control bytes. -/
def keyInfo : List Byte := [C_I 0, C_I 1]

/-- The key of a phase (R159), with NEXT_SEQ for the sender; none in P_IDLE, where nothing is consumed. -/
def keyOf (p : Phase) (nextSeq : SeqBit) : List Byte :=
  match p with
  | .idle => []
  | .openIWaitUa => keyUa
  | .openRWaitSet => keySet
  | .sendWaitReply => keyReply nextSeq
  | .recv => keyInfo
  | .closeIWaitDisc => keyDisc
  | .closeRWaitDisc => keyDisc
  | .closeRWaitUa => keyUa

/-! ### The supervisory frames the block sends (R98) -/

def setBytes : List Byte := encodeS ADDR C_SET
def uaBytes : List Byte := encodeS ADDR C_UA
def discBytes : List Byte := encodeS ADDR C_DISC
def rrBytes (s : SeqBit) : List Byte := encodeS ADDR (C_RR (ackBit s))
def rejBytes (s : SeqBit) : List Byte := encodeS ADDR (C_REJ (ackBit s))

/-! ### Preconditions of the commands (R304) -/

/-- OPEN: the connection is Closed and the payload bound fits the buffers (R180). -/
def State.openAllowed (s : State) (c : OpenConfig) : Bool :=
  decide (s.connState = .closed) && decide (c.maxPayloadSize ≤ s.bufSize)

/-- SEND: the connection is Open and the payload fits (R220). -/
def State.sendAllowed (s : State) (data : List Byte) : Bool :=
  decide (s.connState = .opened) && decide (data.length ≤ s.cfgMaxPayload)

/-- RECEIVE (R250) and CLOSE (R187): the connection is Open. -/
def State.isOpen (s : State) : Bool := decide (s.connState = .opened)

/-! ### Numbers of the enumerated registers (R22, R26, R30, R31, R42) -/

def roleCode : Role → BitVec 1
  | .initiator => 0
  | .responder => 1

def connStateCode : ConnState → BitVec 2
  | .closed => 0
  | .connecting => 1
  | .opened => 2
  | .closing => 3

def phaseCode : Phase → BitVec 3
  | .idle => 0
  | .openIWaitUa => 1
  | .openRWaitSet => 2
  | .sendWaitReply => 3
  | .recv => 4
  | .closeIWaitDisc => 5
  | .closeRWaitDisc => 6
  | .closeRWaitUa => 7

def recStateCode : RecState → BitVec 3
  | .idle => 0
  | .termSeen => 1
  | .addrSeen => 2
  | .ctrlSeen => 3
  | .bccSeen => 4
  | .body => 5
  | .done => 6

def resultCode : Result → BitVec 3
  | .ok => 0
  | .connectFailed => 1
  | .maxRetriesExceeded => 2
  | .channelError => 3
  | .badCommand => 4

end Sys2Proof.Machine
end

