-- ==== Sys2Proof/Machine/Ops.lean ====
section
/-! DEFINITION. The named operations of the rules (R14) over buffers and registers: reads and writes of TXBUF and RXBUF, the
timer, Tx with its failing branch, Post (the block's "trap entry", R318) and what posts through it, the recognizer's step, and
what the host may read. -/

namespace Sys2Proof.Machine

/-- The outcome of a rule. -/
abbrev Res := Host.Outcome State Fault Refusal

/-! ### Buffers (R40, R41, R75: indexed from 0) -/

/-- The byte at an index, if it holds one. -/
def memGet : Memory → Nat → Option Byte
  | [], _ => none
  | (a, v) :: m, i => if a = i then some v else memGet m i

/-- Write one byte, indices kept strictly rising. -/
def memPut : Memory → Nat → Byte → Memory
  | [], i, v => [(i, v)]
  | (a, w) :: m, i, v =>
    if i < a then (i, v) :: (a, w) :: m else if i = a then (i, v) :: m else (a, w) :: memPut m i v

/-- Every index of the list is above `lo`, and they rise strictly. -/
def Memory.risesAbove : Nat → Memory → Bool
  | _, [] => true
  | lo, (a, _) :: m => decide (lo < a) && Memory.risesAbove a m

/-- The canonical form: indices strictly rising. -/
def Memory.wf : Memory → Bool
  | [] => true
  | (a, _) :: m => Memory.risesAbove a m

/-- Every listed index is below the capacity. -/
def Memory.below (cap : Nat) (m : Memory) : Bool := m.all fun c => decide (c.1 < cap)

/-- Read one byte of a buffer of `cap` bytes; an index that holds no value reads as the free value of that index. `none`
outside the buffer. -/
def bufRead (cap : Nat) (free : Nat → Byte) (m : Memory) (i : Nat) : Option Byte :=
  if i < cap then some ((memGet m i).getD (free i)) else none

/-- Read `n` bytes from index `i` on. -/
def bufReadRun (cap : Nat) (free : Nat → Byte) (m : Memory) : Nat → Nat → Option (List Byte)
  | _, 0 => some []
  | i, n + 1 =>
    match bufRead cap free m i, bufReadRun cap free m (i + 1) n with
    | some b, some r => some (b :: r)
    | _, _ => none

/-- Write one byte of a buffer of `cap` bytes. `none` outside the buffer. -/
def bufWrite (cap : Nat) (m : Memory) (i : Nat) (v : Byte) : Option Memory := if i < cap then some (memPut m i v) else none

/-- Write bytes from index `i` on, lowest index first. -/
def bufWriteRun (cap : Nat) : Memory → Nat → List Byte → Option Memory
  | m, _, [] => some m
  | m, i, v :: r =>
    match bufWrite cap m i v with
    | some m' => bufWriteRun cap m' (i + 1) r
    | none => none

/-- `MemRead(RXBUF + i, 1)` (R14). -/
def State.rxRead (s : State) (i : Nat) : Option Byte := bufRead (s.bufSize + 1) (Config.unwrittenRx s.draws) s.rxBuf i

/-- RXBUF[0 .. n-1]. -/
def State.rxBytes (s : State) (n : Nat) : Option (List Byte) :=
  bufReadRun (s.bufSize + 1) (Config.unwrittenRx s.draws) s.rxBuf 0 n

/-- `MemRead(TXBUF + i, 1)` (R14). -/
def State.txRead (s : State) (i : Nat) : Option Byte := bufRead s.bufSize (Config.unwrittenTx s.draws) s.txBuf i

/-- TXBUF[0 .. TX_LEN-1], the payload of the SEND in progress (R40). -/
def State.txPayload (s : State) : Option (List Byte) :=
  bufReadRun s.bufSize (Config.unwrittenTx s.draws) s.txBuf 0 s.txLen

/-! ### The timer (R14, R34) -/

/-- Arm(). Arming an armed timer restarts it (R322). -/
def arm (s : State) : State := { s with timerArmed := true, timerRemaining := s.cfgTimeout }

/-- Disarm(). -/
def disarm (s : State) : State := { s with timerArmed := false }

/-! ### The end of an operation -/

/-- Post(code) (R14, R318): the one way an operation ends. It saves RESULT, RESULT_RETRIES and RESULT_LEN, raises
RESULT_VALID, stops the timer and returns control to the host (PHASE = P_IDLE). There is no return from it but the next command
the host gives (R319). -/
def post (code : Result) (s : State) : State :=
  { s with result := code, resultRetries := s.retryCount, resultLen := 0, resultValid := true, timerArmed := false,
           phase := .idle }

/-- A command whose precondition fails (R304): no other register changes. -/
def badCommand (s : State) : State := post .badCommand { s with resultValid := false }

/-- A channel error (R316): fatal to the connection. -/
def channelError (s : State) : State := post .channelError { disarm s with connState := .closed, recState := .idle }

/-- Tx(l) followed by the rule's later actions (R62, R317). A write that succeeds appends the whole frame and the rule goes
on; one that fails appends the first n bytes of it, none of the later actions happen, and the channel error is taken instead. -/
def transmit (l : List Byte) (after : State → State) (s : State) : State :=
  match s.writeFate with
  | none => after { s with txq := s.txq ++ l }
  | some n => channelError { s with txq := s.txq ++ l.take n, writeFate := none }

/-! ### The recognizer (R151 to R156) -/

/-- REC_STATE and REC_CTRL after one byte, with key K: the table of R151. RecStep is never applied in Body or Done (R157,
R46); DEDUCED (notes/assumptions/6.md): there too "any unexpected byte resets to Idle". -/
def recNext (K : List Byte) (b : Byte) (st : RecState) (ctrl : Byte) : RecState × Byte :=
  match st with
  | .idle => (if b = TERM then .termSeen else .idle, ctrl)
  | .termSeen => (if b = TERM then .termSeen else if b = ADDR then .addrSeen else .idle, ctrl)
  | .addrSeen => if b ∈ K then (.ctrlSeen, b) else (.idle, ctrl)
  | .ctrlSeen => (if b = bcc1 ADDR ctrl then .bccSeen else .idle, ctrl)
  | .bccSeen => (if b = TERM then .done else .idle, ctrl)
  | .body => (.idle, ctrl)
  | .done => (.idle, ctrl)

/-- RecStep(K, b) (R151). -/
def recStep (K : List Byte) (b : Byte) (s : State) : State :=
  { s with recState := (recNext K b s.recState s.recCtrl).1, recCtrl := (recNext K b s.recState s.recCtrl).2 }

/-! ### Reset -/

/-- The Reset event (R350): the specified registers take their values, the unspecified ones their free values, of which
CFG_MAX_PAYLOAD and RX_LEN keep the bounds of R23 and R37, and both buffers hold no value. The streams, the port and the
environment's choices are not touched. DESIGN CHOICE (notes/assumptions/7.md): the free values depend on the instance's own count
of Reset events alone, so two instances (R20, R325) with equal counts draw equal ones. -/
def resetEvent (s : State) : State :=
  let u := Config.unspecified s.draws
  { s with
    connState := .closed, phase := .idle, recState := .idle, nextSeq := 0, expectedSeq := 0, retryCount := 0,
    timerArmed := false, rxEsc := false, rxOvf := false, resultValid := false,
    recCtrl := u.recCtrl, timerRemaining := u.timerRemaining, rxLen := min u.rxLen (min u.cfgMaxPayload s.bufSize + 1),
    rxSeq := u.rxSeq, rxXor := u.rxXor, cfgRole := u.cfgRole, cfgRetryLimit := u.cfgRetryLimit, cfgTimeout := u.cfgTimeout,
    cfgMaxPayload := min u.cfgMaxPayload s.bufSize, cfgChannelId := u.cfgChannelId, cfgSpeed := u.cfgSpeed,
    txBuf := [], txLen := u.txLen, rxBuf := [], result := u.result, resultRetries := u.resultRetries,
    resultLen := u.resultLen, draws := s.draws + 1 }

/-! ### What the host may read (R43) -/

/-- The registers the host may read at any time, by their numbers, RXBUF (all BUF_SIZE + 1 bytes), and the payload delivered
by an Ok RECEIVE (R70). -/
structure HostView where
  resultValid : Bool
  result : BitVec 3
  resultRetries : Nat
  resultLen : Nat
  connState : BitVec 2
  nextSeq : SeqBit
  expectedSeq : SeqBit
  retryCount : Nat
  phase : BitVec 3
  rxBuf : List Byte
  payload : Option (List Byte)
deriving DecidableEq, Repr

/-- The payload in RXBUF[0 .. RESULT_LEN-1], in its window: from an Ok result until the next command is accepted (R70, R355).
Outside the window the buffer holds no value for the host (R41, U7). -/
def State.delivered (s : State) : Option (List Byte) :=
  if s.resultValid ∧ s.result = .ok then s.rxBytes s.resultLen else none

/-- The indices at which RXBUF holds a value for its reader: the destuffed body so far, or the delivered payload (R41). DEDUCED
(notes/assumptions/16.md): at RESULT_LEN and above U7's `any value` is followed. -/
def State.rxHolds (s : State) (i : Nat) : Bool :=
  (decide (s.recState = .body) && decide (i < s.rxLen)) ||
    (s.resultValid && decide (s.result = .ok) && decide (i < s.resultLen))

/-- What the host reads at an index of RXBUF, at any time (R43): the byte it holds there, and a free value where it holds none
(R41, U7). -/
def State.hostRxByte (s : State) (i : Nat) : Byte :=
  if s.rxHolds i then (memGet s.rxBuf i).getD (Config.unwrittenRx s.draws i) else Config.unheldRx s.draws s.rxBuf i

/-- Reading has no side effect (R43, R74): it is a function of the state. DESIGN CHOICE (notes/assumptions/16.md): while PHASE is not
P_IDLE too it gives the working values R43 speaks of, exactly, where U7 would allow any value. -/
def hostRead (s : State) : HostView where
  resultValid := s.resultValid
  result := resultCode s.result
  resultRetries := s.resultRetries
  resultLen := s.resultLen
  connState := connStateCode s.connState
  nextSeq := s.nextSeq
  expectedSeq := s.expectedSeq
  retryCount := s.retryCount
  phase := phaseCode s.phase
  rxBuf := (List.range (s.bufSize + 1)).map s.hostRxByte
  payload := s.delivered

end Sys2Proof.Machine
end

