-- ==== Sys2Proof/Machine/Handshake.lean ====
section
/-! DEFINITION. Connection establishment and teardown (spec/42_handshake.md): OPEN and CLOSE in both roles. -/

namespace Sys2Proof.Machine

/-! ### OPEN -/

/-- The registers an accepted OPEN writes (R180). -/
def latchConfig (c : OpenConfig) (s : State) : State :=
  { s with
    resultValid := false, cfgRole := c.role, cfgChannelId := c.channelIdentifier, cfgSpeed := c.speed,
    cfgRetryLimit := c.retryLimit, cfgTimeout := c.timeoutDuration, cfgMaxPayload := c.maxPayloadSize,
    connState := .connecting, nextSeq := 0, expectedSeq := 0, retryCount := 0, recState := .idle }

/-- R181. -/
def startOpenInitiator (s : State) : State := transmit setBytes (fun t => { arm t with phase := .openIWaitUa }) s

/-- R184: nothing is sent and the timer is not armed. -/
def startOpenResponder (s : State) : State := { s with phase := .openRWaitSet }

/-- OPEN in P_IDLE (R180). -/
def runOpen (c : OpenConfig) (s : State) : Res :=
  if s.openAllowed c then
    match c.role with
    | .initiator => .next (startOpenInitiator (latchConfig c s))
    | .responder => .next (startOpenResponder (latchConfig c s))
  else .next (badCommand s)

/-- OPEN: accepted only in P_IDLE; otherwise the command waits at the port (R68). -/
def execOpen (c : OpenConfig) (s : State) : Res :=
  if s.phase = .idle then runOpen c s else .next { s with port := openRecord c :: s.port }

/-- Rx(b) in P_OPEN_I_WAIT_UA (R182). -/
def rxOpenIWaitUa (b : Byte) (s : State) : Res :=
  if (recStep keyUa b s).recState = .done then
    .next (post .ok { disarm (recStep keyUa b s) with connState := .opened, recState := .idle })
  else .next (recStep keyUa b s)

/-- Rx(b) in P_OPEN_R_WAIT_SET (R185): UA is sent once and nothing more is waited for. -/
def rxOpenRWaitSet (b : Byte) (s : State) : Res :=
  if (recStep keySet b s).recState = .done then
    .next (transmit uaBytes (fun t => post .ok { t with connState := .opened, recState := .idle }) (recStep keySet b s))
  else .next (recStep keySet b s)

/-- One more expiry is counted (R183, R190, R226). -/
def countRetry (s : State) : State := { s with retryCount := s.retryCount + 1 }

/-- The handshake's retries are exhausted (R183, R190, R301). -/
def connectFailed (s : State) : State := post .connectFailed { s with connState := .closed, recState := .idle }

/-- Timeout in P_OPEN_I_WAIT_UA (R183): count, compare, and only then resend (C6). -/
def timeoutOpen (s : State) : Res :=
  if (countRetry s).retriesExhausted then .next (connectFailed (countRetry s))
  else .next (transmit setBytes (fun t => { arm t with recState := .idle }) (countRetry s))

/-! ### CLOSE -/

/-- The registers an accepted CLOSE writes (R187). -/
def startClosing (s : State) : State :=
  { s with resultValid := false, connState := .closing, retryCount := 0, recState := .idle }

/-- R188. -/
def startCloseInitiator (s : State) : State := transmit discBytes (fun t => { arm t with phase := .closeIWaitDisc }) s

/-- R191. -/
def startCloseResponder (s : State) : State := { s with phase := .closeRWaitDisc }

/-- CLOSE in P_IDLE (R187): the role is the one latched at OPEN. -/
def runClose (s : State) : Res :=
  if s.isOpen then
    match s.cfgRole with
    | .initiator => .next (startCloseInitiator (startClosing s))
    | .responder => .next (startCloseResponder (startClosing s))
  else .next (badCommand s)

/-- CLOSE: accepted only in P_IDLE; otherwise the command waits at the port (R68). -/
def execClose (s : State) : Res :=
  if s.phase = .idle then runClose s else .next { s with port := closeRecord :: s.port }

/-- Rx(b) in P_CLOSE_I_WAIT_DISC (R189): the final UA is sent once. -/
def rxCloseIWaitDisc (b : Byte) (s : State) : Res :=
  if (recStep keyDisc b s).recState = .done then
    .next (transmit uaBytes (fun t => post .ok { t with connState := .closed, recState := .idle })
      (disarm (recStep keyDisc b s)))
  else .next (recStep keyDisc b s)

/-- Timeout in P_CLOSE_I_WAIT_DISC (R190): the same counting as R183. -/
def timeoutClose (s : State) : Res :=
  if (countRetry s).retriesExhausted then .next (connectFailed (countRetry s))
  else .next (transmit discBytes (fun t => { arm t with recState := .idle }) (countRetry s))

/-- Rx(b) in P_CLOSE_R_WAIT_DISC (R192): DISC is answered with DISC and no result is posted yet. -/
def rxCloseRWaitDisc (b : Byte) (s : State) : Res :=
  if (recStep keyDisc b s).recState = .done then
    .next (transmit discBytes (fun t => { t with recState := .idle, phase := .closeRWaitUa }) (recStep keyDisc b s))
  else .next (recStep keyDisc b s)

/-- Rx(b) in P_CLOSE_R_WAIT_UA (R193). -/
def rxCloseRWaitUa (b : Byte) (s : State) : Res :=
  if (recStep keyUa b s).recState = .done then
    .next (post .ok { recStep keyUa b s with connState := .closed, recState := .idle })
  else .next (recStep keyUa b s)

end Sys2Proof.Machine
end

