-- ==== Sys2Proof/Machine/Sender.lean ====
section
/-! DEFINITION. The ARQ Sender (spec/43_arq_sender.md): SEND, the frame in flight, its replies and its timeout. -/

namespace Sys2Proof.Machine

/-- The frame in flight (R221): it depends only on NEXT_SEQ and TXBUF. -/
def inFlight (s : State) (payload : List Byte) : List Byte := encodeI ADDR (C_I s.nextSeq) payload

/-- Transmit the frame in flight (R221), first transmission and every retransmission. -/
def sendFrame (s : State) : Res :=
  match s.txPayload with
  | some p => .next (transmit (inFlight s p) (fun t => { arm t with recState := .idle, phase := .sendWaitReply }) s)
  | none => .fault .bufferIndex

/-- SEND in P_IDLE (R220): the payload is copied at acceptance and the frame goes out in the same step. -/
def runSend (data : List Byte) (s : State) : Res :=
  if s.sendAllowed data then
    match bufWriteRun s.bufSize s.txBuf 0 data with
    | some m => sendFrame { s with resultValid := false, txBuf := m, txLen := data.length, retryCount := 0 }
    | none => .fault .bufferIndex
  else .next (badCommand s)

/-- SEND: accepted only in P_IDLE; otherwise the command waits at the port (R68). -/
def execSend (data : List Byte) (s : State) : Res :=
  if s.phase = .idle then runSend data s else .next { s with port := sendRecord data :: s.port }

/-- ACK matched (R224): the only rule that changes NEXT_SEQ after OPEN. -/
def ackMatched (s : State) : State := post .ok { disarm s with nextSeq := flipSeq s.nextSeq, recState := .idle }

/-- Rx(b) in P_SEND_WAIT_REPLY (R223): R224 on the RR, R225 on the REJ; a NACK consumes no retry. -/
def rxSendWaitReply (b : Byte) (s : State) : Res :=
  if (recStep (keyReply s.nextSeq) b s).recState = .done then
    if (recStep (keyReply s.nextSeq) b s).recCtrl = C_RR (ackBit s.nextSeq) then
      .next (ackMatched (recStep (keyReply s.nextSeq) b s))
    else if (recStep (keyReply s.nextSeq) b s).recCtrl = C_REJ (ackBit s.nextSeq) then
      sendFrame (disarm (recStep (keyReply s.nextSeq) b s))
    else
      -- no reply of the key: BccSeen held a control byte that no reachable state holds (notes/assumptions/6.md)
      .next { recStep (keyReply s.nextSeq) b s with recState := .idle }
  else .next (recStep (keyReply s.nextSeq) b s)

/-- Timeout in P_SEND_WAIT_REPLY (R226): fatal for the payload, not for the connection. -/
def timeoutSend (s : State) : Res :=
  if (countRetry s).retriesExhausted then .next (post .maxRetriesExceeded { countRetry s with recState := .idle })
  else sendFrame (countRetry s)

end Sys2Proof.Machine
end

