-- ==== Sys2Proof/Machine/Receiver.lean ====
section
/-! DEFINITION. The ARQ Receiver (spec/44_arq_receiver.md): RECEIVE and the byte-at-a-time machine RxStep. -/

namespace Sys2Proof.Machine

/-- RECEIVE in P_IDLE (R250): nothing is sent and no timer is armed. -/
def runReceive (s : State) : Res :=
  if s.isOpen then .next { s with resultValid := false, retryCount := 0, recState := .idle, phase := .recv }
  else .next (badCommand s)

/-- RECEIVE: accepted only in P_IDLE; otherwise the command waits at the port (R68). -/
def execReceive (s : State) : Res :=
  if s.phase = .idle then runReceive s else .next { s with port := receiveRecord :: s.port }

/-- Entry to Body (R253). -/
def enterBody (s : State) : State :=
  { s with rxSeq := seqOf s.recCtrl, rxLen := 0, rxXor := 0x00, rxEsc := false, rxOvf := false, recState := .body }

/-- Store(d) (R254, R258): every destuffed byte is folded; one that finds no room sets RX_OVF. -/
def storeByte (d : Byte) (s : State) : Res :=
  if s.rxHasRoom then
    match bufWrite (s.bufSize + 1) s.rxBuf s.rxLen d with
    | some m => .next { s with rxXor := s.rxXor ^^^ d, rxBuf := m, rxLen := s.rxLen + 1 }
    | none => .fault .bufferIndex
  else .next { s with rxXor := s.rxXor ^^^ d, rxOvf := true }

/-- Checksum mismatch (R260): the REJ names EXPECTED_SEQ. -/
def rejectFrame (s : State) : State := transmit (rejBytes s.expectedSeq) (fun t => { t with recState := .idle }) s

/-- Duplicate (R261): acknowledged again under its own bit, not delivered. -/
def ackDuplicate (s : State) : State := transmit (rrBytes s.rxSeq) (fun t => { t with recState := .idle }) s

/-- Accept (R262): the only rule that changes EXPECTED_SEQ after OPEN and the only one that delivers a payload. -/
def acceptFrame (s : State) : State :=
  transmit (rrBytes s.expectedSeq)
    (fun t => { post .ok { t with expectedSeq := flipSeq t.expectedSeq, recState := .idle } with resultLen := t.rxLen - 1 }) s

/-- End of frame (R259): framing first, then BCC2, then the sequence bit (D8). -/
def endOfFrame (s : State) : Res :=
  if s.bodyMalformed then .next { s with recState := .idle }
  else
    match s.rxBytes (s.rxLen - 1), s.rxRead (s.rxLen - 1) with
    | some p, some bcc2 =>
      if bcc2Matches p bcc2 then
        if s.isDuplicate then .next (ackDuplicate s) else .next (acceptFrame s)
      else .next (rejectFrame s)
    | _, _ => .fault .bufferIndex

/-- RxStep in Body (R254 to R259). -/
def rxBody (b : Byte) (s : State) : Res :=
  if s.rxEsc then
    if b = TERM then .next { s with rxEsc := false, recState := .idle }
    else storeByte (b ^^^ STUFF_XOR) { s with rxEsc := false }
  else if b = TERM then endOfFrame s
  else if escAfter b then .next { s with rxEsc := true }
  else storeByte b s

/-- Rx(b) in P_RECV: RxStep(b), the table of R251. BccSeen and Done are never entered in P_RECV; DEDUCED
(notes/assumptions/6.md): there too a byte resets to Idle. -/
def rxRecv (b : Byte) (s : State) : Res :=
  match s.recState with
  | .idle => .next (recStep keyInfo b s)
  | .termSeen => .next (recStep keyInfo b s)
  | .addrSeen => .next (recStep keyInfo b s)
  | .ctrlSeen => if b = bcc1 ADDR s.recCtrl then .next (enterBody s) else .next { s with recState := .idle }
  | .body => rxBody b s
  | .bccSeen => .next { s with recState := .idle }
  | .done => .next { s with recState := .idle }

end Sys2Proof.Machine
end

