-- ==== Sys2Proof/Machine/Delivery.lean ====
section
/-! DEFINITION. The events of the block that every phase answers in its own way: Rx (R63), Tick and Timeout (R321), ChErr
(R316); and a run of Rx events over the bytes of a frame. -/

namespace Sys2Proof.Machine

/-- Rx(b): the rule of the current phase (R63). In P_IDLE it is not enabled and the byte stays the oldest of RXQ (R64). -/
def rxByte (b : Byte) (s : State) : Res :=
  match s.phase with
  | .idle => .next { s with rxq := b :: s.rxq }
  | .openIWaitUa => rxOpenIWaitUa b s
  | .openRWaitSet => rxOpenRWaitSet b s
  | .sendWaitReply => rxSendWaitReply b s
  | .recv => rxRecv b s
  | .closeIWaitDisc => rxCloseIWaitDisc b s
  | .closeRWaitDisc => rxCloseRWaitDisc b s
  | .closeRWaitUa => rxCloseRWaitUa b s

/-- The bytes, which stand before those of RXQ, are handed over one by one as long as Rx is enabled; once the block is idle the
rest of them stay in RXQ (R63, R64). -/
def deliver : List Byte → State → Res
  | [], s => .next s
  | b :: r, s =>
    if s.phase = .idle then .next { s with rxq := b :: r ++ s.rxq }
    else
      match rxByte b s with
      | .next t => deliver r t
      | .fault f => .fault f
      | .refused x => .refused x

/-- The Timeout rule of the phase (R321); the timer is already disarmed. No other phase has one: no state of the invariant has
an armed timer there (R46 (b)), and DEDUCED (notes/assumptions/6.md) nothing more happens. -/
def timeoutRule (s : State) : Res :=
  match s.phase with
  | .openIWaitUa => timeoutOpen s
  | .closeIWaitDisc => timeoutClose s
  | .sendWaitReply => timeoutSend s
  | .idle => .next s
  | .openRWaitSet => .next s
  | .recv => .next s
  | .closeRWaitDisc => .next s
  | .closeRWaitUa => .next s

/-- Tick (R321): no effect while the timer is not armed. -/
def tick (s : State) : Res :=
  if s.timerArmed then
    if s.timerExpires then timeoutRule (disarm s) else .next { s with timerRemaining := s.timerRemaining - 1 }
  else .next s

/-- ChErr (R316), enabled in every phase but P_IDLE (R65). -/
def chErr (s : State) : State := if s.phase = .idle then s else channelError s

end Sys2Proof.Machine
end

