-- ==== Sys2Proof/Machine/Frames.lean ====
section
/-! DEFINITION. The nine wire frame kinds as instructions: what the block does with the bytes of one whole frame, handed over
with no other event between them. What comes of it is the rule of the phase (R194 to R196, R227, R228, R264 to R267): awaited, it
is answered; otherwise it is ignored byte by byte; in P_IDLE it waits in RXQ. -/

namespace Sys2Proof.Machine

/-- SET (R194). -/
def execSet (s : State) : Res := deliver (encodeWire .setFrame) s

/-- UA (R195). -/
def execUa (s : State) : Res := deliver (encodeWire .uaFrame) s

/-- DISC (R196). -/
def execDisc (s : State) : Res := deliver (encodeWire .discFrame) s

/-- I0 (R227). -/
def execI0 (payload : List Byte) (s : State) : Res := deliver (encodeWire (.i0Frame payload)) s

/-- I1 (R228). -/
def execI1 (payload : List Byte) (s : State) : Res := deliver (encodeWire (.i1Frame payload)) s

/-- RR0 (R264). -/
def execRr0 (s : State) : Res := deliver (encodeWire .rr0Frame) s

/-- RR1 (R265). -/
def execRr1 (s : State) : Res := deliver (encodeWire .rr1Frame) s

/-- REJ0 (R266). -/
def execRej0 (s : State) : Res := deliver (encodeWire .rej0Frame) s

/-- REJ1 (R267). -/
def execRej1 (s : State) : Res := deliver (encodeWire .rej1Frame) s

end Sys2Proof.Machine
end

