-- ==== Sys2Proof/Machine/Dispatch.lean ====
section
/-! DEFINITION. exec: one arm per row of spec/opcode_table.json. -/

namespace Sys2Proof.Machine

def exec (i : Instr) (s : State) : Host.Outcome State Fault Refusal :=
  match i with
  | .setFrame => Sys2Proof.Machine.execSet s
  | .uaFrame => Sys2Proof.Machine.execUa s
  | .discFrame => Sys2Proof.Machine.execDisc s
  | .i0Frame payload => Sys2Proof.Machine.execI0 payload s
  | .i1Frame payload => Sys2Proof.Machine.execI1 payload s
  | .rr0Frame => Sys2Proof.Machine.execRr0 s
  | .rr1Frame => Sys2Proof.Machine.execRr1 s
  | .rej0Frame => Sys2Proof.Machine.execRej0 s
  | .rej1Frame => Sys2Proof.Machine.execRej1 s
  | .openCmd config => Sys2Proof.Machine.execOpen config s
  | .sendCmd data => Sys2Proof.Machine.execSend data s
  | .receiveCmd => Sys2Proof.Machine.execReceive s
  | .closeCmd => Sys2Proof.Machine.execClose s

end Sys2Proof.Machine
end

