-- ==== Sys2Proof/Machine/TestChannel.lean ====
section
/-! DEFINITION. The optional Bit-Error Channel (spec/45_test_channel.md, D31): between RXQ and the block's Rx events it
delivers each byte unchanged or with one bit inverted. It never adds, removes or reorders a byte. Its draws are the
environment's (R293, U2): lists in the state, and a list that has run out draws a miss. Where the spec leaves its details open
(when the frame draw is made, what happens where both classes could hit one byte) notes/assumptions/14.md says what is done. -/

namespace Sys2Proof.Machine

/-- Invert bit j of a byte. -/
def flipBit (b : Byte) (j : Nat) : Byte := b ^^^ (1#8 <<< j)

/-- Bit k of the 24 header bits, if it lies in the byte at this position (D31: k = 0 is address bit 7, k = 23 is BCC1 bit 0). -/
def headerFlip (k : Fin 24) (p : HeaderPos) (b : Byte) : Byte :=
  match p with
  | .address => if k.val < 8 then flipBit b (7 - k.val) else b
  | .control => if 8 ≤ k.val ∧ k.val < 16 then flipBit b (15 - k.val) else b
  | .bcc _ => if 16 ≤ k.val then flipBit b (23 - k.val) else b

/-- A byte that can stand at this position of a frame's header (R98, R100): ADDR, one of the nine control bytes, the BCC1 of
both. -/
def HeaderPos.fits (p : HeaderPos) (b : Byte) : Bool :=
  match p with
  | .address => decide (b = ADDR)
  | .control => decide (kind b ≠ none)
  | .bcc x => decide (b = bcc1 ADDR x)

/-- The position after the byte b at this one; none after the triplet. -/
def HeaderPos.next (p : HeaderPos) (b : Byte) : Option HeaderPos :=
  match p with
  | .address => some .control
  | .control => some (.bcc b)
  | .bcc _ => none

/-- The byte of a triplet at this position under a frame's draw: the drawn bit inverted if the byte holds it. -/
def hitByte (hit : Option (Fin 24)) (p : HeaderPos) (b : Byte) : Byte :=
  match hit with
  | some k => headerFlip k p b
  | none => b

/-- One draw a frame (R291), made at its address byte. -/
def drawFrame (c : TestChannel) (p : HeaderPos) : TestChannel :=
  match p with
  | .address => { c with hit := c.frameDraws.head?.join, frameDraws := c.frameDraws.tail }
  | .control => c
  | .bcc _ => c

/-- The header-error class (R291) on one byte, by the bytes as they arrive, before any inversion. A TERM that the consumer takes as
the closing one of a frame (in BccSeen or Body) opens none, for the next frame needs its own (R103); any other TERM may open a
frame, and the bytes after it are its triplet as long as they are a frame's header. A byte of no frame is never inverted here, and
a byte the consumer reads in Body is left to the payload class (R290: at most one bit). -/
def passHeader (c : TestChannel) (st : RecState) (b : Byte) : Byte × TestChannel :=
  if st = .body then (b, { c with pos := none })
  else if b = TERM then (b, { c with pos := if st = .bccSeen then none else some .address })
  else
    match c.pos with
    | none => (b, c)
    | some p =>
      if p.fits b then (hitByte (drawFrame c p).hit p b, { drawFrame c p with pos := p.next b })
      else (b, { c with pos := none })

/-- The payload-error class (R292): one draw for every byte delivered while the consumer is in Body. -/
def passPayload (c : TestChannel) (st : RecState) (b : Byte) : Byte × TestChannel :=
  if st = .body then
    ((match c.byteDraws.head?.join with
      | some j => flipBit b j.val
      | none => b), { c with byteDraws := c.byteDraws.tail })
  else (b, c)

/-- One byte through the test channel (R290): both classes, independently. -/
def passByte (c : TestChannel) (st : RecState) (b : Byte) : Byte × TestChannel :=
  passPayload (passHeader c st b).2 st (passHeader c st b).1

/-- The oldest byte of RXQ is handed to the block, through the test channel where there is one. -/
def consume (b : Byte) (s : State) : Res :=
  match s.testChannel with
  | none => rxByte b s
  | some c => rxByte (passByte c s.recState b).1 { s with testChannel := some (passByte c s.recState b).2 }

end Sys2Proof.Machine
end

