-- ==== Sys2Proof/Machine/Events.lean ====
section
/-! DEFINITION. One event of the environment applied to the state (R15, R313). An event that is not enabled leaves the state as
it is: its byte waits in RXQ, its command at the port (R63, R68). -/

namespace Sys2Proof.Machine

/-- The instruction whose encoding stands at the front of a byte stream, letter for letter, and the bytes after it. -/
def fetchFrame (q : List Byte) : Option (Instr × List Byte) :=
  match decodeStream q with
  | .ok (i, rest) => if q = encodeWire i ++ rest then some (i, rest) else none
  | .error _ => none

/-- Rx: the oldest byte of RXQ (R63); not enabled in P_IDLE or with nothing to read. -/
def eventRx (s : State) : Res :=
  match s.rxq with
  | [] => .next s
  | b :: q => if s.phase = .idle then .next s else consume b { s with rxq := q }

/-- A whole frame at the front of RXQ: the instruction it encodes is executed. With a test channel on the path, or where no
whole frame stands at the front, it is one Rx. -/
def eventFrame (s : State) : Res :=
  match s.testChannel, fetchFrame s.rxq with
  | none, some (i, rest) => exec i { s with rxq := rest }
  | none, none => eventRx s
  | some _, _ => eventRx s

/-- Cmd: the oldest command at the port is executed (R68; that several may wait and the oldest goes first is the model's
DESIGN CHOICE, notes/assumptions/20.md); not enabled outside P_IDLE or with nothing at the port. -/
def eventCmd (s : State) : Res :=
  match s.port with
  | [] => .next s
  | r :: rest => if s.phase = .idle then exec (decodeCommand r) { s with port := rest } else .next s

/-- One event (R15). A command that the host presents goes behind those that wait (DESIGN CHOICE, notes/assumptions/20.md). -/
def runEvent (e : Event) (s : State) : Res :=
  match e with
  | .reset => .next (resetEvent s)
  | .cmd => eventCmd s
  | .rx => eventRx s
  | .frame => eventFrame s
  | .tick => tick s
  | .chErr => .next (chErr s)
  | .present r => .next { s with port := s.port ++ [r] }
  | .line q => .next { s with rxq := q }
  | .drain n => .next { s with txq := s.txq.drop n }
  | .writeFate f => .next { s with writeFate := f }

/-- Lay an encoded instruction where the next event takes it from. -/
def fetchFrom (e : Encoded) (s : State) : State :=
  match e with
  | .wire w => { s with rxq := w ++ s.rxq, agenda := .frame :: s.agenda, testChannel := none }
  | .command r => { s with port := r :: s.port, agenda := .cmd :: s.agenda }

end Sys2Proof.Machine
end

