-- ==== Sys2Proof/Machine/Step.lean ====
section
/-! DEFINITION. One step: the environment's next event is applied to the state (R15, R60). Where the environment offers nothing
the block waits: the state stays as it is (U9: a wait is no final state, no fault and no refusal). -/

namespace Sys2Proof.Machine

def step (s : State) : Host.Outcome State Fault Refusal :=
  match s.agenda with
  | [] => .next s
  | e :: rest => runEvent e { s with agenda := rest }

/-- The state whose next step executes the instruction of a table word (Decode.lean's `tableWord`): a frame kind as the bytes
of the whole frame at the front of RXQ and a `frame` event, a command as a record at the front of the port and a `cmd` event. -/
def State.withFetchWord (s : State) (nbits w : Nat) : State := fetchFrom (tableWord nbits w) s

end Sys2Proof.Machine
end

