-- ==== Sys2Proof/Machine/Link.lean ====
section
/-! DEFINITION. Two ends of a link (R20): two instances that share nothing and are joined only by their byte streams. Each has
its own TXQ and RXQ, so no two instances use one channel (R79, U1). The ends' counts of Reset events are free, and ends with
equal counts hold equal free values (notes/assumptions/7.md). -/

namespace Sys2Proof.Machine

structure Link where
  a : State
  b : State
deriving DecidableEq, Repr

/-- What can happen on a link: an end takes its step, or the channel carries the n oldest bytes one end has sent to the other,
loses them, or lets other bytes arrive (R61, U4). -/
inductive LinkMove where
  | runA
  | runB
  | carryAtoB (n : Nat)
  | carryBtoA (n : Nat)
  | loseFromA (n : Nat)
  | loseFromB (n : Nat)
  | noiseAtA (bytes : List Byte)
  | noiseAtB (bytes : List Byte)
deriving DecidableEq, Repr

/-- The n oldest bytes of TXQ are gone. -/
def takeSent (n : Nat) (s : State) : State := { s with txq := s.txq.drop n }

/-- Bytes arrive behind those of RXQ. -/
def arrive (bytes : List Byte) (s : State) : State := { s with rxq := s.rxq ++ bytes }

/-- One end's step; none when it stops. -/
def stepEnd (s : State) : Option State :=
  match step s with
  | .next t => some t
  | .fault _ => none
  | .refused _ => none

/-- One move of a link. -/
def linkMove (m : LinkMove) (l : Link) : Option Link :=
  match m with
  | .runA => (stepEnd l.a).map fun t => { l with a := t }
  | .runB => (stepEnd l.b).map fun t => { l with b := t }
  | .carryAtoB n => some { a := takeSent n l.a, b := arrive (l.a.txq.take n) l.b }
  | .carryBtoA n => some { a := arrive (l.b.txq.take n) l.a, b := takeSent n l.b }
  | .loseFromA n => some { l with a := takeSent n l.a }
  | .loseFromB n => some { l with b := takeSent n l.b }
  | .noiseAtA bytes => some { l with a := arrive bytes l.a }
  | .noiseAtB bytes => some { l with b := arrive bytes l.b }

/-- A run of moves; none when an end stops. -/
def linkRun : List LinkMove → Link → Option Link
  | [], l => some l
  | m :: r, l =>
    match linkMove m l with
    | some l' => linkRun r l'
    | none => none

end Sys2Proof.Machine
end

