-- ==== Sys2Proof/Safety.lean ====
section
/-! DEFINITION. What holds of every reachable state (R46, R23, R33, R37, R39): the invariant the claims use. -/

namespace Sys2Proof.Machine

/-- The phases in which the timer runs (R46 (b)). -/
def Phase.timed : Phase → Bool
  | .openIWaitUa => true
  | .sendWaitReply => true
  | .closeIWaitDisc => true
  | .idle => false
  | .openRWaitSet => false
  | .recv => false
  | .closeRWaitDisc => false
  | .closeRWaitUa => false

/-- The control registers agree with each other: R46 (a) to (f), R33. -/
structure State.Control (s : State) : Prop where
  /-- R46 (a) -/
  idleConn : s.phase = .idle → s.connState = .closed ∨ s.connState = .opened
  /-- R46 (a), (b) -/
  armedIff : s.timerArmed = s.phase.timed
  /-- R46 (c) -/
  connecting : s.connState = .connecting ↔ s.phase = .openIWaitUa ∨ s.phase = .openRWaitSet
  /-- R46 (c) -/
  closing : s.connState = .closing ↔ s.phase = .closeIWaitDisc ∨ s.phase = .closeRWaitDisc ∨ s.phase = .closeRWaitUa
  /-- R46 (c) -/
  transfer : s.phase = .sendWaitReply ∨ s.phase = .recv → s.connState = .opened
  /-- R46 (d) -/
  bodyInRecv : s.recState = .body → s.phase = .recv
  /-- R46 (e) -/
  neverDone : s.recState ≠ .done
  /-- R251: BccSeen is never entered in P_RECV -/
  noBccInRecv : s.phase = .recv → s.recState ≠ .bccSeen
  /-- R158: an operation ends with the recognizer in Idle -/
  idleRec : s.phase = .idle → s.recState = .idle
  /-- R46 (f) -/
  retries : s.timerArmed = true → s.retryCount ≤ s.cfgRetryLimit
  /-- R33 -/
  retryRange : s.retryCount ≤ s.cfgRetryLimit + 1
  /-- R154, R159: a control byte past AddrSeen is one of the phase's key -/
  ctrlInKey : s.recState = .ctrlSeen ∨ s.recState = .bccSeen ∨ s.recState = .body →
    s.recCtrl ∈ keyOf s.phase s.nextSeq
  /-- R42, R68: no result is valid while an operation runs -/
  resultInvalid : s.phase ≠ .idle → s.resultValid = false

/-- The buffers and their bounds: R23, R40, R41, and the canonical form of Machine/State.lean's `Memory`. -/
structure State.Buffers (s : State) : Prop where
  /-- R23 -/
  maxFits : s.cfgMaxPayload ≤ s.bufSize
  txWf : Memory.wf s.txBuf = true
  rxWf : Memory.wf s.rxBuf = true
  /-- R40: TXBUF[0 .. BUF_SIZE-1] -/
  txBelow : Memory.below s.bufSize s.txBuf = true
  /-- R41: RXBUF[0 .. BUF_SIZE] -/
  rxBelow : Memory.below (s.bufSize + 1) s.rxBuf = true
  /-- R220: the payload in progress fits -/
  txFits : s.phase = .sendWaitReply → s.txLen ≤ s.cfgMaxPayload
  /-- R40: TXBUF[0 .. TX_LEN-1] holds the payload in progress -/
  txWritten : s.phase = .sendWaitReply → ∀ i, i < s.txLen → (memGet s.txBuf i).isSome
  /-- R41, R42: the delivered payload is in RXBUF[0 .. RESULT_LEN-1] and no longer than CFG_MAX_PAYLOAD -/
  resultFits : s.resultValid = true → s.result = .ok → s.resultLen ≤ s.cfgMaxPayload
  resultWritten : s.resultValid = true → s.result = .ok → ∀ i, i < s.resultLen → (memGet s.rxBuf i).isSome

/-- The receive-body registers while REC_STATE = Body: R46 (g), R36, R38, R41, R269. -/
structure State.Body (s : State) : Prop where
  /-- R37, R46 (g), in its window of validity (notes/assumptions/8.md) -/
  lenBound : s.recState = .body → s.rxLen ≤ s.cfgMaxPayload + 1
  /-- R258: overflow is marked only on a full buffer -/
  ovfFull : s.recState = .body → s.rxOvf = true → s.rxLen = s.cfgMaxPayload + 1
  /-- R38 -/
  seqIs : s.recState = .body → s.rxSeq = seqOf s.recCtrl
  /-- R41: RXBUF[0 .. RX_LEN-1] holds the destuffed body so far -/
  written : s.recState = .body → ∀ i, i < s.rxLen → (memGet s.rxBuf i).isSome
  /-- R269: the running fold is the fold of what is stored -/
  foldIs : s.recState = .body → s.rxOvf = false → ∀ p, s.rxBytes s.rxLen = some p → s.rxXor = xorFold p

/-- The invariant of every reachable state. -/
structure State.Inv (s : State) : Prop where
  control : s.Control
  buffers : s.Buffers
  body : s.Body

/-! ### Words of the claims -/

/-- The I frame with bit s: I0 or I1. -/
def infoInstr (s : SeqBit) (p : List Byte) : Instr := if s = 0 then .i0Frame p else .i1Frame p

/-- The RR frame with bit s: RR0 or RR1. -/
def rrInstr (s : SeqBit) : Instr := if s = 0 then .rr0Frame else .rr1Frame

/-- The REJ frame with bit s: REJ0 or REJ1. -/
def rejInstr (s : SeqBit) : Instr := if s = 0 then .rej0Frame else .rej1Frame

/-- The control byte of a frame kind; a command has none. -/
def controlOf : Instr → Option Byte
  | .setFrame => some C_SET
  | .uaFrame => some C_UA
  | .discFrame => some C_DISC
  | .i0Frame _ => some (C_I 0)
  | .i1Frame _ => some (C_I 1)
  | .rr0Frame => some (C_RR 0)
  | .rr1Frame => some (C_RR 1)
  | .rej0Frame => some (C_REJ 0)
  | .rej1Frame => some (C_REJ 1)
  | .openCmd _ => none
  | .sendCmd _ => none
  | .receiveCmd => none
  | .closeCmd => none

/-- The payload of an I frame; every other instruction has none. -/
def infoPayload : Instr → Option (List Byte)
  | .i0Frame p => some p
  | .i1Frame p => some p
  | .setFrame => none
  | .uaFrame => none
  | .discFrame => none
  | .rr0Frame => none
  | .rr1Frame => none
  | .rej0Frame => none
  | .rej1Frame => none
  | .openCmd _ => none
  | .sendCmd _ => none
  | .receiveCmd => none
  | .closeCmd => none

/-- Bytes that are exactly one frame of the nine kinds. -/
def IsWholeFrame (l : List Byte) : Prop := ∃ i : Instr, i.isFrame = true ∧ l = encodeWire i

/-- The recognizer over a list of bytes: REC_STATE and REC_CTRL after them. -/
def recRun (K : List Byte) : List Byte → RecState × Byte → RecState × Byte
  | [], p => p
  | b :: r, p => recRun K r (recNext K b p.1 p.2)

/-- n ticks, one after the other. -/
def ticks : Nat → State → Res
  | 0, s => .next s
  | n + 1, s =>
    match tick s with
    | .next t => ticks n t
    | .fault f => .fault f
    | .refused x => .refused x

/-- n steps, one after the other. -/
def steps : Nat → State → Res
  | 0, s => .next s
  | n + 1, s =>
    match step s with
    | .next t => steps n t
    | .fault f => .fault f
    | .refused x => .refused x

/-- n copies of a byte list, end to end. -/
def copies : Nat → List Byte → List Byte
  | 0, _ => []
  | n + 1, l => l ++ copies n l

/-- The ticks from Arm() to the expiry (R321): a timeout of 0 behaves as 1. -/
def State.period (s : State) : Nat := max s.cfgTimeout 1

/-- The registers of the configuration (R25). -/
def State.config (s : State) : OpenConfig :=
  ⟨s.cfgRole, s.cfgChannelId, s.cfgSpeed, s.cfgRetryLimit, s.cfgTimeout, s.cfgMaxPayload⟩

/-- The step applies this event. -/
abbrev State.NextEvent (s : State) (e : Event) : Prop := s.agenda.head? = some e

/-- The step accepts an OPEN with this configuration (R180). -/
def State.AcceptsOpen (s : State) (c : OpenConfig) : Prop :=
  s.NextEvent .cmd ∧ s.phase = .idle ∧ s.connState = .closed ∧ c.maxPayloadSize ≤ s.bufSize ∧
    ∃ r, s.port.head? = some r ∧ decodeCommand r = .openCmd c

/-- The results an operation that runs in this phase can end with (R69, R301, R302). -/
def resultsOf : Phase → List Result
  | .idle => []
  | .openIWaitUa => [.ok, .connectFailed, .channelError]
  | .openRWaitSet => [.ok, .channelError]
  | .sendWaitReply => [.ok, .maxRetriesExceeded, .channelError]
  | .recv => [.ok, .channelError]
  | .closeIWaitDisc => [.ok, .connectFailed, .channelError]
  | .closeRWaitDisc => [.ok, .channelError]
  | .closeRWaitUa => [.ok, .channelError]

/-- Two states agree wherever the spec gives a register a value: every register the reset table specifies (R45), the
environment's side, and each other register in its window of validity (R32, R34, R37 to R42). -/
structure State.Agree (s t : State) : Prop where
  connState : s.connState = t.connState
  phase : s.phase = t.phase
  recState : s.recState = t.recState
  nextSeq : s.nextSeq = t.nextSeq
  expectedSeq : s.expectedSeq = t.expectedSeq
  retryCount : s.retryCount = t.retryCount
  timerArmed : s.timerArmed = t.timerArmed
  rxEsc : s.rxEsc = t.rxEsc
  rxOvf : s.rxOvf = t.rxOvf
  resultValid : s.resultValid = t.resultValid
  txq : s.txq = t.txq
  rxq : s.rxq = t.rxq
  port : s.port = t.port
  agenda : s.agenda = t.agenda
  writeFate : s.writeFate = t.writeFate
  testChannel : s.testChannel = t.testChannel
  bufSize : s.bufSize = t.bufSize
  config : s.connState ≠ .closed → s.config = t.config
  recCtrl : s.recState = .ctrlSeen ∨ s.recState = .bccSeen ∨ s.recState = .body → s.recCtrl = t.recCtrl
  timerRemaining : s.timerArmed = true → s.timerRemaining = t.timerRemaining
  rxRegs : s.recState = .body → s.rxLen = t.rxLen ∧ s.rxSeq = t.rxSeq ∧ s.rxXor = t.rxXor
  rxBuf : s.recState = .body → ∀ i, i < s.rxLen → memGet s.rxBuf i = memGet t.rxBuf i
  txLen : s.phase = .sendWaitReply → s.txLen = t.txLen
  txBuf : s.phase = .sendWaitReply → ∀ i, i < s.txLen → memGet s.txBuf i = memGet t.txBuf i
  result : s.resultValid = true → s.result = t.result ∧ s.resultRetries = t.resultRetries ∧ s.resultLen = t.resultLen
  delivered : s.resultValid = true → s.result = .ok → ∀ i, i < s.resultLen → memGet s.rxBuf i = memGet t.rxBuf i

end Sys2Proof.Machine
end

