-- ==== Sys2Proof/Certificates/Slice0/Obligations.lean ====
section
/-! DEFINITION. The statements for the provers, from the numbered rules of spec/. -/

open Sys2Proof Sys2Proof.Machine

/-! ## The codec -/

/-- From R98 (its BCC1 and whole-frame columns are the spec's derivation): a frame's kind is selected by its whole control byte. The nine rows: kind, BCC1, and the frame's bytes (an I frame
with the payloads of spec/95_test_vectors.md), which decode to the row's instruction. -/
def Obligations.WireWordsDecodeToTheirInstructions : Prop :=
  (kind 0x03 = some .set ∧ bcc1 ADDR 0x03 = 0x00 ∧ decode (.wire [0x7E, 0x03, 0x03, 0x00, 0x7E]) = .ok .setFrame) ∧
  (kind 0x07 = some .ua ∧ bcc1 ADDR 0x07 = 0x04 ∧ decode (.wire [0x7E, 0x03, 0x07, 0x04, 0x7E]) = .ok .uaFrame) ∧
  (kind 0x0B = some .disc ∧ bcc1 ADDR 0x0B = 0x08 ∧ decode (.wire [0x7E, 0x03, 0x0B, 0x08, 0x7E]) = .ok .discFrame) ∧
  (kind 0x00 = some (.info 0) ∧ bcc1 ADDR 0x00 = 0x03 ∧
    decode (.wire [0x7E, 0x03, 0x00, 0x03, 0x7D, 0x5E, 0x41, 0x7D, 0x5D, 0x42, 0x7E]) =
      .ok (.i0Frame [0x7E, 0x41, 0x7D])) ∧
  (kind 0x80 = some (.info 1) ∧ bcc1 ADDR 0x80 = 0x83 ∧
    decode (.wire [0x7E, 0x03, 0x80, 0x83, 0x41, 0x3F, 0x7D, 0x5E, 0x7E]) = .ok (.i1Frame [0x41, 0x3F])) ∧
  (kind 0x05 = some (.rr 0) ∧ bcc1 ADDR 0x05 = 0x06 ∧ decode (.wire [0x7E, 0x03, 0x05, 0x06, 0x7E]) = .ok .rr0Frame) ∧
  (kind 0x85 = some (.rr 1) ∧ bcc1 ADDR 0x85 = 0x86 ∧ decode (.wire [0x7E, 0x03, 0x85, 0x86, 0x7E]) = .ok .rr1Frame) ∧
  (kind 0x01 = some (.rej 0) ∧ bcc1 ADDR 0x01 = 0x02 ∧ decode (.wire [0x7E, 0x03, 0x01, 0x02, 0x7E]) = .ok .rej0Frame) ∧
  (kind 0x81 = some (.rej 1) ∧ bcc1 ADDR 0x81 = 0x82 ∧ decode (.wire [0x7E, 0x03, 0x81, 0x82, 0x7E]) = .ok .rej1Frame)

/-- From R101 (the numbers are the spec's decision D21): the command codes at the host port, whatever the other fields of the record hold. -/
def Obligations.CommandCodesDecodeToTheirCommands : Prop :=
  ∀ (c : OpenConfig) (data : List Byte),
    decode (.command ⟨0, c, data⟩) = .ok (.openCmd c) ∧ decode (.command ⟨1, c, data⟩) = .ok (.sendCmd data) ∧
    decode (.command ⟨2, c, data⟩) = .ok .receiveCmd ∧ decode (.command ⟨3, c, data⟩) = .ok .closeCmd

/-- From R120: stuffing byte by byte, and its three derived facts: no TERM, every ESC followed by 0x5E or 0x5D, and the length. -/
def Obligations.StuffedBytesHideTheTerminator : Prop :=
  stuff TERM = [ESC, 0x5E] ∧ stuff ESC = [ESC, 0x5D] ∧ (∀ b : Byte, b ≠ TERM → b ≠ ESC → stuff b = [b]) ∧
  (∀ l m : List Byte, stuffList (l ++ m) = stuffList l ++ stuffList m) ∧ (∀ b : Byte, stuffList [b] = stuff b) ∧
  (∀ l : List Byte, TERM ∉ stuffList l ∧ l.length ≤ (stuffList l).length ∧ (stuffList l).length ≤ 2 * l.length) ∧
  (∀ l u v : List Byte, stuffList l = u ++ ESC :: v → v.head? = some 0x5E ∨ v.head? = some 0x5D)

/-- From R130, R128: destuffing inverts stuffing on every byte and every list, decoding inverts encoding on every frame, and stuffing does
not invert destuffing on every list without a TERM (R121). -/
def Obligations.DestuffingInvertsStuffing : Prop :=
  (∀ b : Byte, destuffList (stuff b) = .ok [b]) ∧ (∀ l : List Byte, destuffList (stuffList l) = .ok l) ∧
  (∀ (a c : Byte) (p : Option (List Byte)) (w : List Byte), encodeCall a c p = some w → decodeBytes w = .ok ⟨a, c, p⟩) ∧
  (∃ w d : List Byte, TERM ∉ w ∧ destuffList w = .ok d ∧ stuffList d ≠ w)

/-- From R128 and R101: every instruction survives encoding and decoding, with every operand, and a frame is found at the front
of a stream whatever follows it. -/
def Obligations.DecodeOfEncodeIsTheInstruction : Prop :=
  (∀ i : Instr, i.WellFormed → decode (encode i) = .ok i) ∧
  (∀ (i : Instr) (rest : List Byte), i.isFrame = true → i.WellFormed → decodeStream (encodeWire i ++ rest) = .ok (i, rest))

/-- From R91, R92 and R102: the layout and the length of a frame. An S frame is five bytes; an I frame with a payload of L bytes
has between L + 6 and 2 L + 7; header and closing TERM stand where the tables have them, and no TERM stands between. -/
def Obligations.FrameLayoutAndLength : Prop :=
  (∀ (i : Instr) (c : Byte), controlOf i = some c → infoPayload i = none → encodeWire i = [TERM, ADDR, c, ADDR ^^^ c, TERM]) ∧
  (∀ (i : Instr) (c : Byte) (p : List Byte), controlOf i = some c → infoPayload i = some p →
    ∃ body, encodeWire i = [TERM, ADDR, c, ADDR ^^^ c] ++ body ++ [TERM] ∧ body = stuffList (p ++ [xorFold p]) ∧
      TERM ∉ body ∧ p.length + 6 ≤ (encodeWire i).length ∧ (encodeWire i).length ≤ 2 * p.length + 7)

/-- From R99, R126 and R127: a reserved control byte is refused. Decode gives FramingError once the BCC1 is right, no
instruction is decoded, no encoder call is answered. All but the nine control bytes of the table are reserved. -/
def Obligations.ReservedControlBytesAreRefused : Prop :=
  (∀ (c : Byte) (r : List Byte), kind c = none →
    decodeBytes (TERM :: ADDR :: c :: bcc1 ADDR c :: r) = .error .framingError ∧
    decode (.wire (TERM :: ADDR :: c :: bcc1 ADDR c :: r)) = .error (.codec .framingError) ∧
    ∀ p, encodeCall ADDR c p = none) ∧
  (∀ c : Byte, kind c = none ↔ c ∉ ([0x03, 0x07, 0x0B, 0x00, 0x80, 0x05, 0x85, 0x01, 0x81] : List Byte))

/-- From R132: a change of one bit in a byte the checksum covers is detected, and two changes of one bit position are not. -/
def Obligations.ChecksumsDetectOneBit : Prop :=
  (∀ (u v : List Byte) (b : Byte) (j : Nat), j < 8 → xorFold (u ++ flipBit b j :: v) ≠ xorFold (u ++ b :: v)) ∧
  (∀ (u v w : List Byte) (b c : Byte) (j : Nat), j < 8 →
    xorFold (u ++ flipBit b j :: v ++ flipBit c j :: w) = xorFold (u ++ b :: v ++ c :: w)) ∧
  (∀ (a c : Byte) (j : Nat), j < 8 → bcc1 (flipBit a j) c ≠ bcc1 a c ∧ bcc1 a (flipBit c j) ≠ bcc1 a c)

/-! ## The recognizer -/

/-- From R151 to R156 (the row of BccSeen is the spec's decision D3, a TERM in AddrSeen or CtrlSeen its decision D5): the transition table of RecStep, for every key, byte and control byte. -/
def Obligations.RecognizerTransitionTable : Prop :=
  ∀ (K : List Byte) (b : Byte) (x : Byte) (s : State),
    recNext K b .idle x = (if b = TERM then .termSeen else .idle, x) ∧
    recNext K TERM .termSeen x = (.termSeen, x) ∧ recNext K ADDR .termSeen x = (.addrSeen, x) ∧
    (b ≠ TERM → b ≠ ADDR → recNext K b .termSeen x = (.idle, x)) ∧
    (b ∈ K → recNext K b .addrSeen x = (.ctrlSeen, b)) ∧ (b ∉ K → recNext K b .addrSeen x = (.idle, x)) ∧
    (b = ADDR ^^^ x → recNext K b .ctrlSeen x = (.bccSeen, x)) ∧ (b ≠ ADDR ^^^ x → recNext K b .ctrlSeen x = (.idle, x)) ∧
    recNext K b .bccSeen x = (if b = TERM then .done else .idle, x) ∧
    recStep K b s =
      { s with recState := (recNext K b s.recState s.recCtrl).1, recCtrl := (recNext K b s.recState s.recCtrl).2 }

/-- From R160, which the spec derives from R151 to R158. (a) From Idle or TermSeen the frame of a control byte of the key ends in Done. (b) In AddrSeen or CtrlSeen its opening
TERM sends the recognizer to Idle, the frame is missed and its closing TERM leaves TermSeen. (c) Done is reached only on the exact
five bytes, whatever comes before them. (d) A step of the recognizer changes REC_STATE and REC_CTRL only. The keys are those of
the phases that run the recognizer (R159) and, for (c), any key. -/
def Obligations.RecognizerCompletesExactlyOnAwaitedFrames : Prop :=
  (∀ (K : List Byte) (c x : Byte) (st : RecState), c ∈ K → st = .idle ∨ st = .termSeen →
    recRun K (encodeS ADDR c) (st, x) = (.done, c)) ∧
  (∀ (p : Phase) (n : SeqBit) (c x : Byte) (st : RecState), c ∈ keyOf p n → x ∈ keyOf p n →
    st = .addrSeen ∨ st = .ctrlSeen →
    recNext (keyOf p n) TERM st x = (.idle, x) ∧ recRun (keyOf p n) (encodeS ADDR c) (st, x) = (.termSeen, x)) ∧
  (∀ (K l : List Byte) (x : Byte), (recRun K l (.idle, x)).1 = .done →
    ∃ u c, c ∈ K ∧ l = u ++ [TERM, ADDR, c, ADDR ^^^ c, TERM] ∧ (recRun K l (.idle, x)).2 = c) ∧
  (∀ (K : List Byte) (b : Byte) (s : State), ∃ st x, recStep K b s = { s with recState := st, recCtrl := x })

/-! ## The commands -/

/-- From R181, R180, R184: OPEN in P_IDLE. A failed precondition posts BadCommand (the spec's decisions D14, D25); an accepted
OPEN latches all six fields, clears the sequence bits and the counter, and starts the half of the handshake its role selects. -/
def Obligations.OpenLatchesAndStartsTheHandshake : Prop :=
  ∀ (c : OpenConfig) (s : State), s.phase = .idle →
    (¬(s.connState = .closed ∧ c.maxPayloadSize ≤ s.bufSize) →
      exec (.openCmd c) s = .next (post .badCommand { s with resultValid := false })) ∧
    (s.connState = .closed → c.maxPayloadSize ≤ s.bufSize → c.role = .initiator → s.writeFate = none →
      exec (.openCmd c) s = .next { s with
        resultValid := false, cfgRole := .initiator, cfgChannelId := c.channelIdentifier, cfgSpeed := c.speed,
        cfgRetryLimit := c.retryLimit, cfgTimeout := c.timeoutDuration, cfgMaxPayload := c.maxPayloadSize,
        connState := .connecting, nextSeq := 0, expectedSeq := 0, retryCount := 0, recState := .idle,
        txq := s.txq ++ [0x7E, 0x03, 0x03, 0x00, 0x7E], timerArmed := true, timerRemaining := c.timeoutDuration,
        phase := .openIWaitUa }) ∧
    (s.connState = .closed → c.maxPayloadSize ≤ s.bufSize → c.role = .responder →
      exec (.openCmd c) s = .next { s with
        resultValid := false, cfgRole := .responder, cfgChannelId := c.channelIdentifier, cfgSpeed := c.speed,
        cfgRetryLimit := c.retryLimit, cfgTimeout := c.timeoutDuration, cfgMaxPayload := c.maxPayloadSize,
        connState := .connecting, nextSeq := 0, expectedSeq := 0, retryCount := 0, recState := .idle,
        phase := .openRWaitSet })

/-- From R188, R191, R187: CLOSE in P_IDLE. With no open link it posts BadCommand (the spec's decision D14). -/
def Obligations.CloseStartsTheTeardown : Prop :=
  ∀ s : State, s.phase = .idle →
    (s.connState ≠ .opened → exec .closeCmd s = .next (post .badCommand { s with resultValid := false })) ∧
    (s.connState = .opened → s.cfgRole = .initiator → s.writeFate = none →
      exec .closeCmd s = .next { s with
        resultValid := false, connState := .closing, retryCount := 0, recState := .idle,
        txq := s.txq ++ [0x7E, 0x03, 0x0B, 0x08, 0x7E], timerArmed := true, timerRemaining := s.cfgTimeout,
        phase := .closeIWaitDisc }) ∧
    (s.connState = .opened → s.cfgRole = .responder →
      exec .closeCmd s = .next { s with
        resultValid := false, connState := .closing, retryCount := 0, recState := .idle, phase := .closeRWaitDisc })

/-- From R220, R221: SEND in P_IDLE. A failed precondition posts BadCommand (the spec's decisions D14, D26); an accepted SEND copies the payload to TXBUF[0 ..
len-1], leaves the rest of TXBUF, and transmits I(NEXT_SEQ) with the timer armed. -/
def Obligations.SendCopiesAndTransmits : Prop :=
  ∀ (data : List Byte) (s : State), s.phase = .idle →
    (¬(s.connState = .opened ∧ data.length ≤ s.cfgMaxPayload) →
      exec (.sendCmd data) s = .next (post .badCommand { s with resultValid := false })) ∧
    (s.connState = .opened → data.length ≤ s.cfgMaxPayload → s.cfgMaxPayload ≤ s.bufSize → s.writeFate = none →
      ∃ m : Memory,
        exec (.sendCmd data) s = .next { s with
          resultValid := false, txBuf := m, txLen := data.length, retryCount := 0,
          txq := s.txq ++ encodeI ADDR (C_I s.nextSeq) data, timerArmed := true, timerRemaining := s.cfgTimeout,
          recState := .idle, phase := .sendWaitReply } ∧
        ∀ i, memGet m i = if i < data.length then data[i]? else memGet s.txBuf i)

/-- From R250: RECEIVE in P_IDLE. With no open link it posts BadCommand (the spec's decision D14). -/
def Obligations.ReceiveStartsScanning : Prop :=
  ∀ s : State, s.phase = .idle →
    (s.connState ≠ .opened → exec .receiveCmd s = .next (post .badCommand { s with resultValid := false })) ∧
    (s.connState = .opened →
      exec .receiveCmd s = .next { s with resultValid := false, retryCount := 0, recState := .idle, phase := .recv })

/-- From R304 (the spec's decisions D14, D26): a command accepted in P_IDLE whose precondition does not hold posts BadCommand and changes no other register; nothing is
sent. (RESULT_LEN is 0 and RESULT_RETRIES is what RETRY_COUNT was left at, R14.) -/
def Obligations.BadCommandChangesNothingElse : Prop :=
  ∀ s : State, s.phase = .idle → s.timerArmed = false →
    (∀ c : OpenConfig, s.connState ≠ .closed ∨ s.bufSize < c.maxPayloadSize → exec (.openCmd c) s = .next { s with
      resultValid := true, result := .badCommand, resultRetries := s.retryCount, resultLen := 0 }) ∧
    (∀ data : List Byte, s.connState ≠ .opened ∨ s.cfgMaxPayload < data.length → exec (.sendCmd data) s = .next { s with
      resultValid := true, result := .badCommand, resultRetries := s.retryCount, resultLen := 0 }) ∧
    (s.connState ≠ .opened → exec .receiveCmd s = .next { s with
      resultValid := true, result := .badCommand, resultRetries := s.retryCount, resultLen := 0 }) ∧
    (s.connState ≠ .opened → exec .closeCmd s = .next { s with
      resultValid := true, result := .badCommand, resultRetries := s.retryCount, resultLen := 0 })

/-- From R68: while an operation runs a command is neither lost nor answered. Offered by the environment, it stays at the port.
The model's own choices: executed all the same, a command goes back to the front of the port and nothing else changes (DESIGN
CHOICE, log 4), and in P_IDLE the oldest of several waiting commands is taken and executed (DESIGN CHOICE, log 20). -/
def Obligations.CommandsWaitWhileAnOperationRuns : Prop :=
  (∀ (i : Instr) (r : CmdRecord) (s : State), s.phase ≠ .idle → encode i = .command r →
    exec i s = .next { s with port := r :: s.port }) ∧
  (∀ (s : State) (rest : List Event), s.phase ≠ .idle → s.agenda = .cmd :: rest →
    step s = .next { s with agenda := rest }) ∧
  (∀ (s : State) (r : CmdRecord) (q : List CmdRecord) (rest : List Event), s.phase = .idle → s.agenda = .cmd :: rest →
    s.port = r :: q → step s = exec (decodeCommand r) { s with port := q, agenda := rest })

/-! ## Handshake frames -/

/-- R185: SET while the Responder waits for it. UA is sent, the link is open and Ok is posted, in the step of the byte that
completes SET; any other byte changes REC_STATE and REC_CTRL only. The frame SET, from Idle or TermSeen, does all of it. -/
def Obligations.SetOpensTheResponder : Prop :=
  ∀ s : State, s.phase = .openRWaitSet →
    (∀ b : Byte, (recStep keySet b s).recState ≠ .done → rxByte b s = .next (recStep keySet b s)) ∧
    (∀ b : Byte, (recStep keySet b s).recState = .done → s.writeFate = none → rxByte b s = .next { s with
      recState := .idle, recCtrl := (recStep keySet b s).recCtrl, txq := s.txq ++ [0x7E, 0x03, 0x07, 0x04, 0x7E],
      connState := .opened, result := .ok, resultRetries := s.retryCount, resultLen := 0, resultValid := true,
      timerArmed := false, phase := .idle }) ∧
    (s.recState = .idle ∨ s.recState = .termSeen → s.writeFate = none → exec .setFrame s = .next { s with
      recState := .idle, recCtrl := 0x03, txq := s.txq ++ [0x7E, 0x03, 0x07, 0x04, 0x7E], connState := .opened,
      result := .ok, resultRetries := s.retryCount, resultLen := 0, resultValid := true, timerArmed := false,
      phase := .idle })

/-- R182, R193: UA while the Initiator waits for it at OPEN (the link is open, RESULT_RETRIES the expiries counted) and while the
Responder waits for it at CLOSE (the link is closed). Nothing is sent. -/
def Obligations.UaOpensTheInitiatorAndClosesTheResponder : Prop :=
  ∀ s : State,
    (s.phase = .openIWaitUa →
      (∀ b : Byte, (recStep keyUa b s).recState ≠ .done → rxByte b s = .next (recStep keyUa b s)) ∧
      (∀ b : Byte, (recStep keyUa b s).recState = .done → rxByte b s = .next { s with
        recState := .idle, recCtrl := (recStep keyUa b s).recCtrl, connState := .opened, result := .ok,
        resultRetries := s.retryCount, resultLen := 0, resultValid := true, timerArmed := false, phase := .idle }) ∧
      (s.recState = .idle ∨ s.recState = .termSeen → exec .uaFrame s = .next { s with
        recState := .idle, recCtrl := 0x07, connState := .opened, result := .ok, resultRetries := s.retryCount,
        resultLen := 0, resultValid := true, timerArmed := false, phase := .idle })) ∧
    (s.phase = .closeRWaitUa →
      (∀ b : Byte, (recStep keyUa b s).recState ≠ .done → rxByte b s = .next (recStep keyUa b s)) ∧
      (∀ b : Byte, (recStep keyUa b s).recState = .done → rxByte b s = .next { s with
        recState := .idle, recCtrl := (recStep keyUa b s).recCtrl, connState := .closed, result := .ok,
        resultRetries := s.retryCount, resultLen := 0, resultValid := true, timerArmed := false, phase := .idle }) ∧
      (s.recState = .idle ∨ s.recState = .termSeen → exec .uaFrame s = .next { s with
        recState := .idle, recCtrl := 0x07, connState := .closed, result := .ok, resultRetries := s.retryCount,
        resultLen := 0, resultValid := true, timerArmed := false, phase := .idle }))

/-- R189, R192: DISC while the Initiator waits for it (the timer is stopped, the final UA sent, Ok posted, the link closed) and
while the Responder waits for it (DISC is answered with DISC, no result is posted, the final UA is awaited). -/
def Obligations.DiscEndsOrAnswersTheTeardown : Prop :=
  ∀ s : State, s.writeFate = none →
    (s.phase = .closeIWaitDisc →
      (∀ b : Byte, (recStep keyDisc b s).recState ≠ .done → rxByte b s = .next (recStep keyDisc b s)) ∧
      (∀ b : Byte, (recStep keyDisc b s).recState = .done → rxByte b s = .next { s with
        recState := .idle, recCtrl := (recStep keyDisc b s).recCtrl, txq := s.txq ++ [0x7E, 0x03, 0x07, 0x04, 0x7E],
        connState := .closed, result := .ok, resultRetries := s.retryCount, resultLen := 0, resultValid := true,
        timerArmed := false, phase := .idle }) ∧
      (s.recState = .idle ∨ s.recState = .termSeen → exec .discFrame s = .next { s with
        recState := .idle, recCtrl := 0x0B, txq := s.txq ++ [0x7E, 0x03, 0x07, 0x04, 0x7E], connState := .closed,
        result := .ok, resultRetries := s.retryCount, resultLen := 0, resultValid := true, timerArmed := false,
        phase := .idle })) ∧
    (s.phase = .closeRWaitDisc →
      (∀ b : Byte, (recStep keyDisc b s).recState ≠ .done → rxByte b s = .next (recStep keyDisc b s)) ∧
      (∀ b : Byte, (recStep keyDisc b s).recState = .done → rxByte b s = .next { s with
        recState := .idle, recCtrl := (recStep keyDisc b s).recCtrl, txq := s.txq ++ [0x7E, 0x03, 0x0B, 0x08, 0x7E],
        phase := .closeRWaitUa }) ∧
      (s.recState = .idle ∨ s.recState = .termSeen → exec .discFrame s = .next { s with
        recState := .idle, recCtrl := 0x0B, txq := s.txq ++ [0x7E, 0x03, 0x0B, 0x08, 0x7E], phase := .closeRWaitUa }))

/-! ## The sender's replies -/

/-- From R224, R222, R223 (that a reply names the bit of the frame it answers is the spec's decision D2, conflict C1): RR with
NEXT_SEQ's bit, RR0 or RR1, ends SEND. The timer is stopped, NEXT_SEQ flips, Ok is posted with the expiries counted. -/
def Obligations.RrFlipsNextSeqAndEndsSend : Prop :=
  ∀ (n : SeqBit) (s : State), s.phase = .sendWaitReply → s.nextSeq = n → s.recState = .idle ∨ s.recState = .termSeen →
    exec (rrInstr n) s = .next { s with
      recState := .idle, recCtrl := C_RR n, nextSeq := 1 - n, result := .ok, resultRetries := s.retryCount,
      resultLen := 0, resultValid := true, timerArmed := false, phase := .idle }

/-- From R225 (the spec's decisions D2, D7): REJ with NEXT_SEQ's bit, REJ0 or REJ1, sends the same frame again at once and restarts the timer; RETRY_COUNT and NEXT_SEQ keep
their values, whatever the count is. -/
def Obligations.RejRetransmitsWithoutARetry : Prop :=
  ∀ (n : SeqBit) (p : List Byte) (s : State), s.phase = .sendWaitReply → s.nextSeq = n →
    s.recState = .idle ∨ s.recState = .termSeen → s.txPayload = some p → s.writeFate = none →
    exec (rejInstr n) s = .next { s with
      recState := .idle, recCtrl := C_REJ n, txq := s.txq ++ encodeI ADDR (C_I n) p, timerArmed := true,
      timerRemaining := s.cfgTimeout }

/-! ## Frames that are not awaited -/

/-- From R100, R223, R263, R160 (b): a frame of a kind that is not in the phase's key, or any frame whose opening TERM meets the
recognizer part-way through a header, is ignored: it leaves TermSeen and changes nothing else. -/
def Obligations.FramesNotAwaitedAreIgnored : Prop :=
  ∀ (i : Instr) (c : Byte) (s : State), s.Inv → s.phase ≠ .idle → controlOf i = some c →
    (c ∉ keyOf s.phase s.nextSeq ∧ (s.recState = .idle ∨ s.recState = .termSeen)) ∨
      s.recState = .addrSeen ∨ s.recState = .ctrlSeen →
    exec i s = .next { s with recState := .termSeen }

/-- From R63, R64: in P_IDLE nothing is consumed. A frame stays at the front of RXQ, byte for byte, and an Rx leaves the state as
it is. -/
def Obligations.BytesWaitWhileTheBlockIsIdle : Prop :=
  ∀ s : State, s.phase = .idle →
    (∀ i : Instr, i.isFrame = true → exec i s = .next { s with rxq := encodeWire i ++ s.rxq }) ∧
    (∀ rest : List Event, s.agenda = .rx :: rest → step s = .next { s with agenda := rest }) ∧
    (∀ rest : List Event, s.agenda = .frame :: rest → step s = .next { s with agenda := rest })

/-! ## The receiver -/

/-- R262: an I frame with the expected bit, I0 or I1, is accepted. RR with that bit is sent, EXPECTED_SEQ flips, Ok is posted, RESULT_LEN is
the payload's length, and RXBUF holds the payload, then the BCC2; the rest of RXBUF is unchanged. -/
def Obligations.ExpectedInfoFrameIsAccepted : Prop :=
  ∀ (n : SeqBit) (p : List Byte) (s : State), s.phase = .recv → s.recState = .idle ∨ s.recState = .termSeen →
    s.expectedSeq = n → p.length ≤ s.cfgMaxPayload → s.cfgMaxPayload ≤ s.bufSize → s.writeFate = none →
    ∃ m : Memory,
      exec (infoInstr n p) s = .next { s with
        txq := s.txq ++ rrBytes n, expectedSeq := 1 - n, recState := .idle, recCtrl := C_I n, rxEsc := false,
        rxOvf := false, rxLen := p.length + 1, rxSeq := n, rxXor := 0x00, rxBuf := m, result := .ok,
        resultRetries := s.retryCount, resultLen := p.length, resultValid := true, timerArmed := false,
        phase := .idle } ∧
      ∀ i, memGet m i = if i < p.length + 1 then (p ++ [xorFold p])[i]? else memGet s.rxBuf i

/-- From R261 (the spec's decision D9 where no frame was accepted before): an intact I frame with the other bit, I0 or I1, is a
duplicate. RR with the frame's own bit is sent; nothing is delivered and
EXPECTED_SEQ keeps its value. -/
def Obligations.DuplicateIsAcknowledgedNotDelivered : Prop :=
  ∀ (n : SeqBit) (p : List Byte) (s : State), s.phase = .recv → s.recState = .idle ∨ s.recState = .termSeen →
    s.expectedSeq ≠ n → p.length ≤ s.cfgMaxPayload → s.cfgMaxPayload ≤ s.bufSize → s.writeFate = none →
    ∃ m : Memory,
      exec (infoInstr n p) s = .next { s with
        txq := s.txq ++ rrBytes n, recState := .idle, recCtrl := C_I n, rxEsc := false, rxOvf := false,
        rxLen := p.length + 1, rxSeq := n, rxXor := 0x00, rxBuf := m } ∧
      ∀ i, memGet m i = if i < p.length + 1 then (p ++ [xorFold p])[i]? else memGet s.rxBuf i

/-- R260: an I frame, of either bit, whose BCC2 does not match is answered with REJ(EXPECTED_SEQ); the block goes on receiving,
nothing is delivered and EXPECTED_SEQ keeps its value. -/
def Obligations.DamagedInfoFrameIsRejected : Prop :=
  ∀ (n : SeqBit) (p : List Byte) (x : Byte) (s : State), s.phase = .recv →
    s.recState = .idle ∨ s.recState = .termSeen → x ≠ xorFold p → p.length ≤ s.cfgMaxPayload →
    s.cfgMaxPayload ≤ s.bufSize → s.writeFate = none →
    ∃ m : Memory,
      deliver ([TERM, ADDR, C_I n, bcc1 ADDR (C_I n)] ++ stuffList (p ++ [x]) ++ [TERM]) s = .next { s with
        txq := s.txq ++ rejBytes s.expectedSeq, recState := .idle, recCtrl := C_I n, rxEsc := false, rxOvf := false,
        rxLen := p.length + 1, rxSeq := n, rxXor := xorFold p ^^^ x, rxBuf := m } ∧
      ∀ i, memGet m i = if i < p.length + 1 then (p ++ [x])[i]? else memGet s.rxBuf i

/-- From R253, R257, R258, R259 (the spec's decision D10): the malformed frames are dropped in silence. A wrong BCC1 byte, TERM included, returns to Idle; an
escape before the closing TERM and an empty body abandon the frame; a frame with more than CFG_MAX_PAYLOAD + 1 destuffed bytes,
whatever its checksum, is consumed to its end and dropped. Nothing is sent, delivered or counted. -/
def Obligations.MalformedFramesAreDroppedInSilence : Prop :=
  ∀ s : State, s.phase = .recv →
    (∀ b : Byte, s.recState = .ctrlSeen → b ≠ bcc1 ADDR s.recCtrl → rxByte b s = .next { s with recState := .idle }) ∧
    (s.recState = .body → s.rxEsc = true → rxByte TERM s = .next { s with rxEsc := false, recState := .idle }) ∧
    (s.recState = .body → s.rxEsc = false → s.rxLen = 0 → rxByte TERM s = .next { s with recState := .idle }) ∧
    (∀ (n : SeqBit) (d : List Byte), s.recState = .idle ∨ s.recState = .termSeen → s.cfgMaxPayload + 1 < d.length →
      s.cfgMaxPayload ≤ s.bufSize →
      ∃ m : Memory,
        deliver ([TERM, ADDR, C_I n, bcc1 ADDR (C_I n)] ++ stuffList d ++ [TERM]) s = .next { s with
          recState := .idle, recCtrl := C_I n, rxEsc := false, rxOvf := true, rxLen := s.cfgMaxPayload + 1, rxSeq := n,
          rxXor := xorFold d, rxBuf := m } ∧
        ∀ i, memGet m i = if i < s.cfgMaxPayload + 1 then d[i]? else memGet s.rxBuf i)

/-- From R272: the streaming receiver agrees with the pure decoder. The bytes w run from an opening TERM over a header without TERM
to the next raw TERM. The receiver answers RR with the frame's bit exactly when Decode(w) is an I frame at ADDR whose payload fits,
and RXBUF then holds that payload; it answers REJ exactly when BCC2 alone is wrong and the body fits; otherwise it is silent. -/
def Obligations.ReceiverAgreesWithTheDecoder : Prop :=
  ∀ (a c k : Byte) (body : List Byte) (s : State), s.phase = .recv → s.recState = .idle → s.writeFate = none →
    s.cfgMaxPayload ≤ s.bufSize → a ≠ TERM → c ≠ TERM → k ≠ TERM → TERM ∉ body →
    ∃ t, deliver (TERM :: a :: c :: k :: body ++ [TERM]) s = .next t ∧
      ((∃ p, decodeBytes (TERM :: a :: c :: k :: body ++ [TERM]) = .ok ⟨ADDR, c, some p⟩ ∧ p.length ≤ s.cfgMaxPayload ∧
          t.rxBytes p.length = some p ∧ t.rxSeq = seqOf c ∧ t.txq = s.txq ++ rrBytes (seqOf c) ∧
          (if seqOf c = s.expectedSeq then t.phase = .idle ∧ t.delivered = some p
            else t.phase = .recv ∧ t.resultValid = s.resultValid)) ∨
        (decodeBytes (TERM :: a :: c :: k :: body ++ [TERM]) = .error .badChecksum ∧ a = ADDR ∧ k = bcc1 a c ∧
          (∃ d, destuffList body = .ok d ∧ d.length ≤ s.cfgMaxPayload + 1) ∧ t.phase = .recv ∧
          t.txq = s.txq ++ rejBytes s.expectedSeq) ∨
        ((∀ p, decodeBytes (TERM :: a :: c :: k :: body ++ [TERM]) = .ok ⟨ADDR, c, some p⟩ → s.cfgMaxPayload < p.length) ∧
          (decodeBytes (TERM :: a :: c :: k :: body ++ [TERM]) = .error .badChecksum → a = ADDR → k = bcc1 a c →
            ∀ d, destuffList body = .ok d → s.cfgMaxPayload + 1 < d.length) ∧
          t.phase = .recv ∧ t.txq = s.txq))

/-- From R270: no double delivery. A frame I(n) is accepted; the host issues RECEIVE again; the same frame, retransmitted because its
RR was lost, is answered RR(n) again and not delivered, and the block goes on waiting for a frame with the other bit. -/
def Obligations.LostAckCausesNoSecondDelivery : Prop :=
  ∀ (n : SeqBit) (p : List Byte) (s : State), s.phase = .recv → s.connState = .opened →
    s.recState = .idle ∨ s.recState = .termSeen → s.expectedSeq = n → p.length ≤ s.cfgMaxPayload →
    s.cfgMaxPayload ≤ s.bufSize → s.writeFate = none →
    ∃ t u v, exec (infoInstr n p) s = .next t ∧ t.delivered = some p ∧ t.expectedSeq = 1 - n ∧
      exec .receiveCmd t = .next u ∧ exec (infoInstr n p) u = .next v ∧ v.txq = s.txq ++ rrBytes n ++ rrBytes n ∧
      v.phase = .recv ∧ v.resultValid = false ∧ v.delivered = none ∧ v.expectedSeq = 1 - n ∧ v.recState = .idle

/-! ## The timer -/

/-- From R321 (ticks are the spec's decision D19): a tick changes nothing while the timer is not armed, counts down while more than one tick remains, and otherwise disarms
the timer and performs the phase's Timeout rule; so the timer expires at the max(T, 1)-th tick after Arm(). -/
def Obligations.TickCountsDownToTheTimeout : Prop :=
  (∀ s : State, s.timerArmed = false → tick s = .next s) ∧
  (∀ s : State, s.timerArmed = true → 1 < s.timerRemaining →
    tick s = .next { s with timerRemaining := s.timerRemaining - 1 }) ∧
  (∀ s : State, s.timerArmed = true → s.timerRemaining ≤ 1 →
    (s.phase = .openIWaitUa → tick s = timeoutOpen { s with timerArmed := false }) ∧
    (s.phase = .closeIWaitDisc → tick s = timeoutClose { s with timerArmed := false }) ∧
    (s.phase = .sendWaitReply → tick s = timeoutSend { s with timerArmed := false })) ∧
  (∀ (s : State) (n : Nat), n < s.period →
    ticks n (arm s) = .next { s with timerArmed := true, timerRemaining := s.cfgTimeout - n }) ∧
  (∀ s : State, ticks s.period (arm s) = timeoutRule { s with
    timerArmed := false, timerRemaining := s.cfgTimeout - (s.period - 1) })

/-- From R183, R190 (the state after a failure is the spec's decisions D16, D29): the tick that exhausts the timer of OPEN or CLOSE. The expiry is counted, then compared: within the limit the frame
is sent again and the timer restarted; beyond it ConnectFailed is posted and the connection is Closed. -/
def Obligations.HandshakeTimeoutResendsOrFails : Prop :=
  ∀ s : State, s.timerArmed = true → s.timerRemaining ≤ 1 →
    (s.phase = .openIWaitUa ∨ s.phase = .closeIWaitDisc → s.cfgRetryLimit < s.retryCount + 1 → tick s = .next { s with
      retryCount := s.retryCount + 1, connState := .closed, recState := .idle, result := .connectFailed,
      resultRetries := s.retryCount + 1, resultLen := 0, resultValid := true, timerArmed := false, phase := .idle }) ∧
    (s.phase = .openIWaitUa → s.retryCount + 1 ≤ s.cfgRetryLimit → s.writeFate = none → tick s = .next { s with
      retryCount := s.retryCount + 1, txq := s.txq ++ [0x7E, 0x03, 0x03, 0x00, 0x7E], timerRemaining := s.cfgTimeout,
      recState := .idle }) ∧
    (s.phase = .closeIWaitDisc → s.retryCount + 1 ≤ s.cfgRetryLimit → s.writeFate = none → tick s = .next { s with
      retryCount := s.retryCount + 1, txq := s.txq ++ [0x7E, 0x03, 0x0B, 0x08, 0x7E], timerRemaining := s.cfgTimeout,
      recState := .idle })

/-- From R226 (the link stays Open: the spec's decision D29): the tick that exhausts the timer of SEND. Beyond the limit MaxRetriesExceeded is posted, the link stays as it was and
NEXT_SEQ keeps its value; within it the same frame is sent again. -/
def Obligations.SendTimeoutResendsOrGivesUp : Prop :=
  ∀ s : State, s.phase = .sendWaitReply → s.timerArmed = true → s.timerRemaining ≤ 1 →
    (s.cfgRetryLimit < s.retryCount + 1 → tick s = .next { s with
      retryCount := s.retryCount + 1, recState := .idle, result := .maxRetriesExceeded,
      resultRetries := s.retryCount + 1, resultLen := 0, resultValid := true, timerArmed := false, phase := .idle }) ∧
    (∀ p, s.retryCount + 1 ≤ s.cfgRetryLimit → s.txPayload = some p → s.writeFate = none → tick s = .next { s with
      retryCount := s.retryCount + 1, txq := s.txq ++ encodeI ADDR (C_I s.nextSeq) p, timerRemaining := s.cfgTimeout,
      recState := .idle })

/-- From R186, which the spec derives: the counts of the Initiator's OPEN (that a failed OPEN ends Closed is R183, the spec's decision D29). With retry limit R and no UA, SET is sent R + 1 times, and at the (R + 1)-th expiry
ConnectFailed is posted with R + 1 retries; with UA after k ≤ R expiries SET was sent k + 1 times and Ok is posted with k. -/
def Obligations.OpenTransmitsSetOncePerRetry : Prop :=
  ∀ (c : OpenConfig) (s : State) (k : Nat) (q : List CmdRecord) (rest : List Event), c.role = .initiator →
    c.maxPayloadSize ≤ s.bufSize → s.phase = .idle → s.connState = .closed → s.writeFate = none →
    s.port = openRecord c :: q →
    (s.agenda = .cmd :: (List.replicate ((c.retryLimit + 1) * max c.timeoutDuration 1) .tick ++ rest) →
      ∃ t, steps (1 + (c.retryLimit + 1) * max c.timeoutDuration 1) s = .next t ∧
        t.txq = s.txq ++ copies (c.retryLimit + 1) setBytes ∧ t.result = .connectFailed ∧
        t.resultRetries = c.retryLimit + 1 ∧ t.resultValid = true ∧ t.phase = .idle ∧ t.connState = .closed ∧
        t.agenda = rest) ∧
    (k ≤ c.retryLimit → s.testChannel = none →
      s.agenda = .cmd :: (List.replicate (k * max c.timeoutDuration 1) .tick ++ .frame :: rest) →
      (∃ q', s.rxq = uaBytes ++ q') →
      ∃ t, steps (1 + k * max c.timeoutDuration 1 + 1) s = .next t ∧ t.txq = s.txq ++ copies (k + 1) setBytes ∧
        t.result = .ok ∧ t.resultRetries = k ∧ t.resultValid = true ∧ t.phase = .idle ∧ t.connState = .opened ∧
        t.agenda = rest)

/-- From R229: with retry limit R and a peer that never replies SEND transmits the I frame exactly R + 1 times; at the (R + 1)-th
expiry it posts MaxRetriesExceeded with R + 1 retries; the link stays Open and NEXT_SEQ keeps its value. -/
def Obligations.SendTransmitsOncePerRetry : Prop :=
  ∀ (data : List Byte) (s : State) (q : List CmdRecord) (rest : List Event), s.phase = .idle → s.connState = .opened →
    data.length ≤ s.cfgMaxPayload → s.cfgMaxPayload ≤ s.bufSize → s.writeFate = none → s.port = sendRecord data :: q →
    s.agenda = .cmd :: (List.replicate ((s.cfgRetryLimit + 1) * s.period) .tick ++ rest) →
    ∃ t, steps (1 + (s.cfgRetryLimit + 1) * s.period) s = .next t ∧
      t.txq = s.txq ++ copies (s.cfgRetryLimit + 1) (encodeI ADDR (C_I s.nextSeq) data) ∧
      t.result = .maxRetriesExceeded ∧ t.resultRetries = s.cfgRetryLimit + 1 ∧ t.resultValid = true ∧
      t.phase = .idle ∧ t.connState = .opened ∧ t.nextSeq = s.nextSeq ∧ t.agenda = rest

/-- From R356: no number of matched REJs ends a SEND or counts as a retry. k REJs with NEXT_SEQ's bit bring k retransmissions
and leave the SEND waiting. -/
def Obligations.NacksNeverEndASend : Prop :=
  ∀ (k : Nat) (p : List Byte) (s : State) (rest : List Event) (q : List Byte), s.phase = .sendWaitReply →
    s.recState = .idle ∨ s.recState = .termSeen → s.txPayload = some p → s.writeFate = none → s.testChannel = none →
    s.agenda = List.replicate k .frame ++ rest → s.rxq = copies k (rejBytes s.nextSeq) ++ q →
    ∃ t, steps k s = .next t ∧ t.txq = s.txq ++ copies k (encodeI ADDR (C_I s.nextSeq) p) ∧
      t.phase = .sendWaitReply ∧ t.retryCount = s.retryCount ∧ t.nextSeq = s.nextSeq ∧ t.resultValid = s.resultValid ∧
      t.rxq = q ∧ t.agenda = rest

/-! ## Channel errors -/

/-- From R316 (the state after the error is the spec's decision D17): ChErr in any phase but P_IDLE stops the timer, closes the connection and posts ChannelError; the sequence bits, the
buffers and the configuration keep their values and nothing is sent. In P_IDLE it is not enabled (R65). -/
def Obligations.ChannelErrorClosesTheConnection : Prop :=
  ∀ (s : State) (rest : List Event), s.agenda = .chErr :: rest →
    (s.phase ≠ .idle → step s = .next { s with
      agenda := rest, timerArmed := false, connState := .closed, recState := .idle, result := .channelError,
      resultRetries := s.retryCount, resultLen := 0, resultValid := true, phase := .idle }) ∧
    (s.phase = .idle → step s = .next { s with agenda := rest })

/-- From R317: the second outcome of a rule that transmits. Take a command, a byte or a tick whose write would succeed, sending the
frame f. If the write fails after n bytes, the first n bytes of f are in TXQ, no later action of the rule happens (unless the
event executes an OPEN, which clears both before its Tx, no sequence bit changes; nothing is delivered, no timer runs), and ChannelError is posted with the
connection Closed. A rule that sends nothing is untouched by the choice. -/
def Obligations.FailedWriteIsAChannelError : Prop :=
  ∀ (e : Event) (s t : State) (n : Nat), e = .cmd ∨ e = .rx ∨ e = .tick → s.writeFate = none → runEvent e s = .next t →
    (t.txq = s.txq ∧ runEvent e { s with writeFate := some n } = .next { t with writeFate := some n }) ∨
    (∃ f u, IsWholeFrame f ∧ t.txq = s.txq ++ f ∧ runEvent e { s with writeFate := some n } = .next u ∧
      u.txq = s.txq ++ f.take n ∧ u.writeFate = none ∧ u.result = .channelError ∧ u.resultValid = true ∧
      u.resultLen = 0 ∧ u.phase = .idle ∧ u.connState = .closed ∧ u.timerArmed = false ∧ u.recState = .idle ∧
      ((∀ r c, e = .cmd → s.port.head? = some r → decodeCommand r ≠ .openCmd c) →
        u.nextSeq = s.nextSeq ∧ u.expectedSeq = s.expectedSeq))

/-- From R62, R317: every step but the channel's own taking leaves TXQ as it was or appends exactly one whole frame; a partial
frame appears only where a write fails, and then ChannelError is posted. -/
def Obligations.OnlyWholeFramesAreSent : Prop :=
  ∀ s t : State, step s = .next t → (∀ n, ¬ s.NextEvent (.drain n)) →
    t.txq = s.txq ∨
    (∃ f, IsWholeFrame f ∧ t.txq = s.txq ++ f) ∨
    (∃ f n, IsWholeFrame f ∧ s.writeFate = some n ∧ t.txq = s.txq ++ f.take n ∧ t.result = .channelError ∧
      t.resultValid = true ∧ t.connState = .closed)

/-! ## Reset -/

/-- From R350 (Reset is the spec's decision D22): the Reset event, in any phase. The registers it specifies take their values; TXQ, RXQ, the port and the environment's
choices are not touched; both buffers hold no value. -/
def Obligations.ResetGivesTheSpecifiedRegisters : Prop :=
  ∀ (s : State) (rest : List Event), s.agenda = .reset :: rest → ∃ t, step s = .next t ∧
    t.connState = .closed ∧ t.phase = .idle ∧ t.recState = .idle ∧ t.nextSeq = 0 ∧ t.expectedSeq = 0 ∧
    t.retryCount = 0 ∧ t.timerArmed = false ∧ t.rxEsc = false ∧ t.rxOvf = false ∧ t.resultValid = false ∧
    t.txq = s.txq ∧ t.rxq = s.rxq ∧ t.port = s.port ∧ t.agenda = rest ∧ t.writeFate = s.writeFate ∧
    t.testChannel = s.testChannel ∧ t.bufSize = s.bufSize ∧ (∀ i, memGet t.txBuf i = none) ∧ ∀ i, memGet t.rxBuf i = none

/-- From R45 and R351: the state after reset. Its specified registers hold the table's values; SEND, RECEIVE and CLOSE post
BadCommand, and an OPEN whose bound fits starts. -/
def Obligations.ResetStateAcceptsOnlyOpen : Prop :=
  (State.reset.connState = .closed ∧ State.reset.phase = .idle ∧ State.reset.recState = .idle ∧
    State.reset.nextSeq = 0 ∧ State.reset.expectedSeq = 0 ∧ State.reset.retryCount = 0 ∧
    State.reset.timerArmed = false ∧ State.reset.rxEsc = false ∧ State.reset.rxOvf = false ∧
    State.reset.resultValid = false) ∧
  (∀ data, ∃ t, exec (.sendCmd data) State.reset = .next t ∧ t.result = .badCommand ∧ t.resultValid = true ∧ t.txq = []) ∧
  (∃ t, exec .receiveCmd State.reset = .next t ∧ t.result = .badCommand ∧ t.resultValid = true ∧ t.phase = .idle) ∧
  (∃ t, exec .closeCmd State.reset = .next t ∧ t.result = .badCommand ∧ t.resultValid = true ∧ t.phase = .idle) ∧
  (∀ c : OpenConfig, c.maxPayloadSize ≤ Config.bufSize →
    ∃ t, exec (.openCmd c) State.reset = .next t ∧ t.connState = .connecting ∧ t.config = c)

/-! ## Whole-machine rules -/

/-- From R27, R28, R29, R224, R262: what changes a sequence bit. NEXT_SEQ changes only by a reset, an accepted OPEN (to 0), or the
ACK that ends a SEND with Ok; EXPECTED_SEQ only by a reset, an accepted OPEN (to 0), or the accepted frame that ends a RECEIVE with
Ok; each of the last two flips it. -/
def Obligations.SequenceBitsChangeOnlyByTheirRules : Prop :=
  ∀ s t : State, step s = .next t →
    (t.nextSeq ≠ s.nextSeq → s.NextEvent .reset ∨ (∃ c, s.AcceptsOpen c ∧ t.nextSeq = 0) ∨
      (s.phase = .sendWaitReply ∧ t.phase = .idle ∧ t.result = .ok ∧ t.resultValid = true ∧ t.nextSeq = 1 - s.nextSeq)) ∧
    (t.expectedSeq ≠ s.expectedSeq → s.NextEvent .reset ∨ (∃ c, s.AcceptsOpen c ∧ t.expectedSeq = 0) ∨
      (s.phase = .recv ∧ t.phase = .idle ∧ t.result = .ok ∧ t.resultValid = true ∧ t.expectedSeq = 1 - s.expectedSeq))

/-- From R25: the six configuration registers are written together by the step that accepts OPEN, and by nothing else but a
reset. -/
def Obligations.ConfigurationIsWrittenOnlyByOpen : Prop :=
  ∀ s t : State, step s = .next t → t.config = s.config ∨ s.NextEvent .reset ∨ ∃ c, s.AcceptsOpen c ∧ t.config = c

/-- From R69, R301, R302, R303: an operation that ends posts exactly one result, one of those its phase can post. -/
def Obligations.OperationsEndWithAResultOfTheirs : Prop :=
  ∀ s t : State, s.Inv → step s = .next t → ¬ s.NextEvent .reset →
    (s.phase ≠ .idle → t.phase = .idle → t.resultValid = true ∧ t.result ∈ resultsOf s.phase) ∧
    (t.phase ≠ .idle → t.resultValid = false)

/-- From R357: in the four phases without a timer no tick, no command and nothing the environment does to its own side ends the
wait; only a received byte, ChErr or Reset can, and a byte only if it is the closing TERM of an awaited frame. -/
def Obligations.TimerlessPhasesEndOnlyByByteErrorOrReset : Prop :=
  (∀ s t : State, s.Inv →
    s.phase = .openRWaitSet ∨ s.phase = .recv ∨ s.phase = .closeRWaitDisc ∨ s.phase = .closeRWaitUa →
    step s = .next t → t.phase ≠ s.phase →
    s.NextEvent .rx ∨ s.NextEvent .frame ∨ s.NextEvent .chErr ∨ s.NextEvent .reset) ∧
  (∀ (b : Byte) (s t : State), s.Inv →
    s.phase = .openRWaitSet ∨ s.phase = .recv ∨ s.phase = .closeRWaitDisc ∨ s.phase = .closeRWaitUa →
    rxByte b s = .next t → t.phase ≠ s.phase →
    b = TERM ∧ s.recCtrl ∈ keyOf s.phase s.nextSeq ∧
      (s.recState = .bccSeen ∨ (s.recState = .body ∧ s.rxEsc = false ∧ s.rxOvf = false ∧ 0 < s.rxLen)))

/-- The state after reset meets the invariant. -/
def Obligations.ResetStateMeetsTheInvariant : Prop := State.reset.Inv

/-- From R46 (with (g) in RX_LEN's window of validity, notes/assumptions/8.md), R23, R33, R40, R41, R269: every step from a state
that meets the invariant leads to one that meets it. -/
def Obligations.StepKeepsTheInvariant : Prop :=
  ∀ s t : State, s.Inv → step s = .next t → t.Inv

/-- From R46, R300: from a state that meets the invariant a step always answers a next state: the block has no fault of its own,
and no access to a buffer leaves it. -/
def Obligations.StepAlwaysAnswersANextState : Prop :=
  ∀ s : State, s.Inv → ∃ t, step s = .next t

/-- From R45: no rule reads an unspecified register before writing it. Two states that agree wherever a value is specified take
the same step and agree after it: what a register holds outside its window reaches neither the channel nor a register or byte
in its window. -/
def Obligations.UnspecifiedRegistersAreNeverRead : Prop :=
  ∀ s t s' : State, s.Inv → t.Inv → s.Agree t → step s = .next s' → ∃ t', step t = .next t' ∧ s'.Agree t'

/-! ## The step, frames of the instructions, the host -/

/-- From R15, R63, R68, in the model's own form: a step runs the decoded instruction. Where the agenda offers a whole frame that stands
at the front of RXQ (the frame event: DESIGN CHOICE, log 4), or a command in P_IDLE (the oldest of those that wait: DESIGN CHOICE,
log 20), the step is `exec` of what decodes there, with its bytes or its record taken; with an empty agenda the block waits (DESIGN
CHOICE, log 2). -/
def Obligations.StepRunsTheDecodedInstruction : Prop :=
  (∀ (i : Instr) (s : State) (q : List Byte) (rest : List Event), i.isFrame = true → i.WellFormed →
    s.agenda = .frame :: rest → s.testChannel = none → s.rxq = encodeWire i ++ q →
    decode (.wire s.rxq) = .ok i ∧ step s = exec i { s with agenda := rest, rxq := q }) ∧
  (∀ (i : Instr) (s : State) (r : CmdRecord) (q : List CmdRecord) (rest : List Event), decode (.command r) = .ok i →
    i.WellFormed → s.agenda = .cmd :: rest → s.phase = .idle → s.port = r :: q →
    step s = exec i { s with agenda := rest, port := q }) ∧
  (∀ s : State, s.agenda = [] → step s = .next s)

/-- The frame of the nine frame kinds (from R25, R40, R41, R68, R224, R262): whatever the block is doing, a received frame changes
no configuration register, no byte of TXBUF nor TX_LEN, and nothing of the environment's side but the two streams and the
choice a failed write has used up. NEXT_SEQ changes only in P_SEND_WAIT_REPLY, EXPECTED_SEQ and RXBUF only in P_RECV; a
supervisory frame writes no byte of RXBUF, an I frame only the indices up to its payload's length. -/
def Obligations.FramesLeaveTheRestUnchanged : Prop :=
  ∀ (i : Instr) (s t : State), i.isFrame = true → s.Inv → exec i s = .next t →
    t.config = s.config ∧ t.txLen = s.txLen ∧ (∀ j, memGet t.txBuf j = memGet s.txBuf j) ∧ t.port = s.port ∧
    t.agenda = s.agenda ∧ t.testChannel = s.testChannel ∧ t.bufSize = s.bufSize ∧ t.draws = s.draws ∧
    t.retryCount = s.retryCount ∧ (t.writeFate = s.writeFate ∨ t.writeFate = none) ∧
    (s.phase ≠ .sendWaitReply → t.nextSeq = s.nextSeq) ∧ (s.phase ≠ .recv → t.expectedSeq = s.expectedSeq) ∧
    (s.phase ≠ .recv ∨ infoPayload i = none → ∀ j, memGet t.rxBuf j = memGet s.rxBuf j) ∧
    (∀ p, infoPayload i = some p → ∀ j, p.length < j → memGet t.rxBuf j = memGet s.rxBuf j)

/-- The frame of the four commands (from R25, R40, R180, R187, R220, R250, R304): a command reads and writes no byte of RXBUF and
no receive-body register but REC_STATE, consumes nothing from RXQ, and writes TXBUF only as SEND, at the indices below
its length. -/
def Obligations.CommandsLeaveTheRestUnchanged : Prop :=
  ∀ (i : Instr) (s t : State), i.isFrame = false → exec i s = .next t →
    t.rxq = s.rxq ∧ t.agenda = s.agenda ∧ t.testChannel = s.testChannel ∧ t.bufSize = s.bufSize ∧ t.draws = s.draws ∧
    t.recCtrl = s.recCtrl ∧ t.rxEsc = s.rxEsc ∧ t.rxOvf = s.rxOvf ∧ t.rxLen = s.rxLen ∧ t.rxSeq = s.rxSeq ∧
    t.rxXor = s.rxXor ∧ (∀ j, memGet t.rxBuf j = memGet s.rxBuf j) ∧
    ((∀ c, i ≠ .openCmd c) → t.config = s.config ∧ t.nextSeq = s.nextSeq ∧ t.expectedSeq = s.expectedSeq) ∧
    ((∀ d, i ≠ .sendCmd d) → t.txLen = s.txLen ∧ ∀ j, memGet t.txBuf j = memGet s.txBuf j) ∧
    (∀ d, i = .sendCmd d → ∀ j, d.length ≤ j → memGet t.txBuf j = memGet s.txBuf j) ∧
    (s.phase = .idle → t.port = s.port)

/-- From R22, R26, R30, R42, R43 (numbers of D21): what the host reads. At any time each register of R43, by number, and BUF_SIZE + 1
bytes of RXBUF; RXBUF's bytes are the stored ones where it holds a value (R41): the body so far, and after an Ok result
RXBUF[0 .. RESULT_LEN-1], which is the delivered payload. That the host gets no payload outside that window, after any
other result or with none, is the model's own reading (DEDUCED, log 16), and so is that the registers and the body so far read
exactly as they are while PHASE is not P_IDLE (R43: working values, no promise; DESIGN CHOICE, log 16). -/
def Obligations.HostReadsTheResultRecord : Prop :=
  (resultCode .ok = 0 ∧ resultCode .connectFailed = 1 ∧ resultCode .maxRetriesExceeded = 2 ∧
    resultCode .channelError = 3 ∧ resultCode .badCommand = 4) ∧
  (connStateCode .closed = 0 ∧ connStateCode .connecting = 1 ∧ connStateCode .opened = 2 ∧ connStateCode .closing = 3) ∧
  (roleCode .initiator = 0 ∧ roleCode .responder = 1) ∧
  (phaseCode .idle = 0 ∧ phaseCode .openIWaitUa = 1 ∧ phaseCode .openRWaitSet = 2 ∧ phaseCode .sendWaitReply = 3 ∧
    phaseCode .recv = 4 ∧ phaseCode .closeIWaitDisc = 5 ∧ phaseCode .closeRWaitDisc = 6 ∧ phaseCode .closeRWaitUa = 7) ∧
  (∀ s : State, (hostRead s).resultValid = s.resultValid ∧ (hostRead s).result = resultCode s.result ∧
    (hostRead s).resultRetries = s.resultRetries ∧ (hostRead s).resultLen = s.resultLen ∧
    (hostRead s).connState = connStateCode s.connState ∧ (hostRead s).nextSeq = s.nextSeq ∧
    (hostRead s).expectedSeq = s.expectedSeq ∧ (hostRead s).retryCount = s.retryCount ∧
    (hostRead s).phase = phaseCode s.phase ∧ (hostRead s).rxBuf.length = s.bufSize + 1) ∧
  (∀ s : State, s.Inv →
    (s.recState = .body → ∀ i, i < s.rxLen → (hostRead s).rxBuf[i]? = memGet s.rxBuf i) ∧
    (s.resultValid = true → s.result = .ok → ∃ p, (hostRead s).payload = some p ∧ p.length = s.resultLen ∧
      ∀ i, i < s.resultLen → memGet s.rxBuf i = p[i]? ∧ (hostRead s).rxBuf[i]? = p[i]?)) ∧
  (∀ s : State, ¬(s.resultValid = true ∧ s.result = .ok) → (hostRead s).payload = none)

/-! ## The optional test channel, and two ends of a link -/

/-- From R290, R291, R292, R294 (its details are the spec's decision D31; how a frame in flight is found and when its draw is made is
the model's, log 14): the Bit-Error Channel delivers each byte unchanged or with exactly one bit inverted; with draws that all miss
it changes nothing. A TERM may open a frame unless the consumer takes it as a closing one; the address byte after it draws, and
with the hit k a byte of the frame's triplet is delivered with bit k inverted if it holds it; a byte of no frame is delivered
unchanged outside Body. In Body a byte whose draw is j is delivered with bit j inverted. A frame with one bit of its header
triplet inverted never gets past its BCC1. -/
def Obligations.TestChannelFlipsAtMostOneBit : Prop :=
  (∀ (c : TestChannel) (st : RecState) (b : Byte),
    (passByte c st b).1 = b ∨ ∃ j, j < 8 ∧ (passByte c st b).1 = flipBit b j) ∧
  (∀ (c : TestChannel) (st : RecState) (b : Byte), (∀ d ∈ c.frameDraws, d = none) → (∀ d ∈ c.byteDraws, d = none) →
    c.hit = none → (passByte c st b).1 = b ∧ (passByte c st b).2.hit = none ∧
      (∀ d ∈ (passByte c st b).2.frameDraws, d = none) ∧ ∀ d ∈ (passByte c st b).2.byteDraws, d = none) ∧
  (∀ (c : TestChannel) (st : RecState), st ≠ .body →
    passByte c st TERM = (TERM, { c with pos := if st = .bccSeen then none else some .address })) ∧
  (∀ (c : TestChannel) (st : RecState) (d : Option (Fin 24)) (r : List (Option (Fin 24))), st ≠ .body →
    c.pos = some .address → c.frameDraws = d :: r →
    passByte c st ADDR = (hitByte d .address ADDR, { c with hit := d, frameDraws := r, pos := some .control })) ∧
  (∀ (c : TestChannel) (st : RecState) (x : Byte), st ≠ .body → kind x ≠ none →
    (c.pos = some .control → passByte c st x = (hitByte c.hit .control x, { c with pos := some (.bcc x) })) ∧
    (c.pos = some (.bcc x) →
      passByte c st (bcc1 ADDR x) = (hitByte c.hit (.bcc x) (bcc1 ADDR x), { c with pos := none }))) ∧
  (∀ (c : TestChannel) (st : RecState) (b : Byte), st ≠ .body → b ≠ TERM →
    (c.pos = none → passByte c st b = (b, c)) ∧
    (c.pos = some .address → b ≠ ADDR → passByte c st b = (b, { c with pos := none })) ∧
    (c.pos = some .control → kind b = none → passByte c st b = (b, { c with pos := none })) ∧
    (∀ x, c.pos = some (.bcc x) → b ≠ bcc1 ADDR x → passByte c st b = (b, { c with pos := none }))) ∧
  (∀ (k : Fin 24) (b x : Byte), (∀ p, hitByte none p b = b) ∧
    hitByte (some k) .address b = (if k.val < 8 then flipBit b (7 - k.val) else b) ∧
    hitByte (some k) .control b = (if 8 ≤ k.val ∧ k.val < 16 then flipBit b (15 - k.val) else b) ∧
    hitByte (some k) (.bcc x) b = (if 16 ≤ k.val then flipBit b (23 - k.val) else b)) ∧
  (∀ (c : TestChannel) (b : Byte) (j : Fin 8) (r : List (Option (Fin 8))), c.byteDraws = some j :: r →
    passByte c .body b = (flipBit b j.val, { c with byteDraws := r, pos := none })) ∧
  (∀ (p : Phase) (n : SeqBit) (c x : Byte) (k : Fin 24), c ∈ keyOf p n →
    (recRun (keyOf p n)
      [TERM, headerFlip k .address ADDR, headerFlip k .control c, headerFlip k (.bcc c) (bcc1 ADDR c)] (.idle, x)).1 ≠ .bccSeen)

/-- From R71, R77, R29: a SEND at one end and a RECEIVE at the other, over a channel that carries every byte, move the payload once
and whole. Both post Ok, the delivered payload is the one sent, both bits flip and agree again. -/
def Obligations.LinkMovesThePayloadOnce : Prop :=
  ∀ (l : Link) (p : List Byte), l.a.phase = .idle → l.b.phase = .idle → l.a.connState = .opened →
    l.b.connState = .opened → l.a.nextSeq = l.b.expectedSeq → p.length ≤ l.a.cfgMaxPayload →
    p.length ≤ l.b.cfgMaxPayload → l.a.cfgMaxPayload ≤ l.a.bufSize → l.b.cfgMaxPayload ≤ l.b.bufSize →
    l.a.writeFate = none → l.b.writeFate = none → l.a.testChannel = none → l.b.testChannel = none → l.a.txq = [] →
    l.b.txq = [] → l.a.rxq = [] → l.b.rxq = [] → l.a.port = [sendRecord p] → l.b.port = [receiveRecord] →
    l.a.agenda = [.cmd, .frame] → l.b.agenda = [.cmd, .frame] →
    ∃ l', linkRun [.runB, .runA, .carryAtoB (encodeI ADDR (C_I l.a.nextSeq) p).length, .runB, .carryBtoA 5, .runA] l =
        some l' ∧
      l'.b.delivered = some p ∧ l'.b.phase = .idle ∧ l'.a.phase = .idle ∧ l'.a.result = .ok ∧ l'.a.resultValid = true ∧
      l'.a.resultRetries = 0 ∧ l'.a.nextSeq = 1 - l.a.nextSeq ∧ l'.a.nextSeq = l'.b.expectedSeq ∧ l'.a.txq = [] ∧
      l'.b.txq = [] ∧ l'.a.rxq = [] ∧ l'.b.rxq = []
end

