-- ==== Sys2Proof/Laws/Memory.lean ====
section
/-! SUPPORT. The laws of the buffers: a read after a write, the canonical form, the capacity, and what a run of reads or writes
does. -/

namespace Sys2Proof.Machine

/-! ### One byte -/

theorem memGet_memPut (m : Memory) (i j : Nat) (v : Byte) :
    memGet (memPut m i v) j = if j = i then some v else memGet m j := by
  induction m with
  | nil => simp [memPut, memGet, eq_comm]
  | cons c m ih =>
    obtain ⟨a, w⟩ := c
    unfold memPut
    split_ifs <;> simp only [memGet] <;> split_ifs <;> first | rfl | omega | simp_all

theorem risesAbove_memPut {lo i : Nat} {v : Byte} (m : Memory) (h : Memory.risesAbove lo m = true) (hi : lo < i) :
    Memory.risesAbove lo (memPut m i v) = true := by
  induction m generalizing lo with
  | nil => simpa [memPut, Memory.risesAbove] using hi
  | cons c m ih =>
    obtain ⟨a, w⟩ := c
    simp only [Memory.risesAbove, Bool.and_eq_true, decide_eq_true_eq] at h
    unfold memPut
    split_ifs with h1 h2
    · simp [Memory.risesAbove, hi, h1, h.2]
    · subst h2; simp [Memory.risesAbove, hi, h.2]
    · simp [Memory.risesAbove, h.1, ih h.2 (by omega)]

/-- A write keeps the canonical form. -/
theorem wf_memPut (m : Memory) (i : Nat) (v : Byte) (h : Memory.wf m = true) : Memory.wf (memPut m i v) = true := by
  cases m with
  | nil => rfl
  | cons c m =>
    obtain ⟨a, w⟩ := c
    unfold memPut
    split_ifs with h1 h2
    · simpa [Memory.wf, Memory.risesAbove, h1] using h
    · subst h2; simpa [Memory.wf] using h
    · exact risesAbove_memPut m h (by omega)

/-- A write below the capacity keeps every index below it. -/
theorem below_memPut (cap : Nat) (m : Memory) (i : Nat) (v : Byte) (h : Memory.below cap m = true) (hi : i < cap) :
    Memory.below cap (memPut m i v) = true := by
  induction m with
  | nil => simpa [memPut, Memory.below] using hi
  | cons c m ih =>
    obtain ⟨a, w⟩ := c
    simp only [Memory.below, List.all_cons, Bool.and_eq_true, decide_eq_true_eq] at h ih ⊢
    unfold memPut
    split_ifs <;> simp [h.1, h.2, hi, ih h.2]

/-- `bufWrite` answers exactly inside the buffer. -/
theorem bufWrite_eq_some {cap : Nat} {m m' : Memory} {i : Nat} {v : Byte} :
    bufWrite cap m i v = some m' ↔ i < cap ∧ m' = memPut m i v := by
  unfold bufWrite; split_ifs <;> simp_all [eq_comm]

/-! ### Runs -/

/-- Writing a list from index i on: it fits below the capacity, the listed indices hold the list, the others are
unchanged, and the canonical form and the capacity are kept. -/
theorem bufWriteRun_spec (cap : Nat) (l : List Byte) : ∀ (m : Memory) (i : Nat), i + l.length ≤ cap →
    ∃ m', bufWriteRun cap m i l = some m' ∧
      (∀ j, memGet m' j = if i ≤ j ∧ j < i + l.length then l[j - i]? else memGet m j) ∧
      (Memory.wf m = true → Memory.wf m' = true) ∧ (Memory.below cap m = true → Memory.below cap m' = true) := by
  induction l with
  | nil => intro m i _; exact ⟨m, rfl, fun j => by rw [if_neg (by simp)], id, id⟩
  | cons v r ih =>
    intro m i h
    simp only [List.length_cons] at h
    obtain ⟨m', hw, hg, hwf, hb⟩ := ih (memPut m i v) (i + 1) (by omega)
    refine ⟨m', ?_, ?_, fun hm => hwf (wf_memPut m i v hm), fun hm => hb (below_memPut cap m i v hm (by omega))⟩
    · simp [bufWriteRun, bufWrite, show i < cap by omega, hw]
    · intro j
      rw [hg j, memGet_memPut, List.length_cons]
      by_cases hj : j = i
      · subst hj; simp
      · by_cases hi : i + 1 ≤ j ∧ j < i + 1 + r.length
        · rw [if_pos hi, if_pos (by omega), show j - i = (j - (i + 1)) + 1 by omega, List.getElem?_cons_succ]
        · rw [if_neg hi, if_neg hj, if_neg (by omega)]

/-- Reading n bytes from index i on answers inside the buffer, with n bytes. -/
theorem bufReadRun_isSome (cap : Nat) (free : Nat → Byte) (m : Memory) (n : Nat) :
    ∀ i, i + n ≤ cap → ∃ p, bufReadRun cap free m i n = some p ∧ p.length = n := by
  induction n with
  | zero => intro i _; exact ⟨[], rfl, rfl⟩
  | succ n ih =>
    intro i h
    obtain ⟨p, hp, hl⟩ := ih (i + 1) (by omega)
    exact ⟨(memGet m i).getD (free i) :: p, by simp [bufReadRun, bufRead, show i < cap by omega, hp], by simp [hl]⟩

/-- Reading a run whose indices hold the bytes of a list gives that list. -/
theorem bufReadRun_eq_some (cap : Nat) (free : Nat → Byte) (m : Memory) (l : List Byte) :
    ∀ i, i + l.length ≤ cap → (∀ j, j < l.length → memGet m (i + j) = l[j]?) →
      bufReadRun cap free m i l.length = some l := by
  induction l with
  | nil => intro i _ _; rfl
  | cons v r ih =>
    intro i h hg
    simp only [List.length_cons] at h
    have h0 : memGet m i = some v := by simpa using hg 0 (by simp)
    have hr := ih (i + 1) (by omega) fun j hj => by
      have := hg (j + 1) (by simpa using hj)
      rw [List.getElem?_cons_succ] at this
      rw [← this]; congr 1; omega
    simp [bufReadRun, bufRead, show i < cap by omega, h0, hr]

/-- What a run reads, index by index. -/
theorem getElem?_of_bufReadRun (cap : Nat) (free : Nat → Byte) (m : Memory) (n : Nat) :
    ∀ i p, bufReadRun cap free m i n = some p → p.length = n ∧ ∀ j, j < n → p[j]? = some ((memGet m (i + j)).getD (free (i + j))) := by
  induction n with
  | zero => intro i p h; simp only [bufReadRun, Option.some.injEq] at h; subst h; simp
  | succ n ih =>
    intro i p h
    simp only [bufReadRun] at h
    split at h
    · rename_i b r hb hr
      simp only [Option.some.injEq] at h
      subst h
      obtain ⟨hl, hg⟩ := ih (i + 1) r hr
      refine ⟨by simp [hl], fun j hj => ?_⟩
      unfold bufRead at hb
      split_ifs at hb
      cases j with
      | zero => simpa using hb.symm
      | succ k =>
        rw [List.getElem?_cons_succ, hg k (by omega)]
        congr 3 <;> omega
    · simp at h

end Sys2Proof.Machine
end

