-- ==== Sys2Proof/Laws/Boundary.lean ====
section
/-! SUPPORT. What passes the block's boundary: the bytes of RXBUF the host reads, and a byte through the test channel. -/

namespace Sys2Proof.Machine

/-! ### What the host reads -/

@[simp] theorem hostRead_rxBuf_length (s : State) : (hostRead s).rxBuf.length = s.bufSize + 1 := by simp [hostRead]

/-- An index at which RXBUF holds a written byte reads as that byte. -/
theorem hostRead_rxBuf_held (s : State) (i : Nat) (v : Byte) (hi : i < s.bufSize + 1) (hh : s.rxHolds i = true)
    (hv : memGet s.rxBuf i = some v) : (hostRead s).rxBuf[i]? = some v := by
  simp [hostRead, List.getElem?_map, List.getElem?_range hi, State.hostRxByte, hh, hv]

/-- Outside the window of a delivered payload the host gets none. -/
theorem delivered_eq_none (s : State) (h : ¬(s.resultValid = true ∧ s.result = .ok)) : s.delivered = none := by
  simp [State.delivered, h]

/-! ### The test channel -/

/-- The payload class inverts at most one bit, and only in Body. -/
theorem passPayload_cases (c : TestChannel) (st : RecState) (b : Byte) :
    (passPayload c st b).1 = b ∨ (st = .body ∧ ∃ j, j < 8 ∧ (passPayload c st b).1 = flipBit b j) := by
  unfold passPayload
  split_ifs with h
  · cases c.byteDraws.head?.join with
    | none => exact .inl rfl
    | some j => exact .inr ⟨h, j, j.2, rfl⟩
  · exact .inl rfl

/-- The header class inverts at most one bit, and none in Body. -/
theorem passHeader_cases (c : TestChannel) (st : RecState) (b : Byte) :
    (passHeader c st b).1 = b ∨ (st ≠ .body ∧ ∃ j, j < 8 ∧ (passHeader c st b).1 = flipBit b j) := by
  have flips : ∀ (k : Fin 24) (p : HeaderPos), headerFlip k p b = b ∨ ∃ j, j < 8 ∧ headerFlip k p b = flipBit b j := by
    intro k p
    cases p <;> simp only [headerFlip] <;> split_ifs <;> first | exact .inl rfl | exact .inr ⟨_, by omega, rfl⟩
  by_cases hs : st = .body
  · exact .inl (by simp [passHeader, hs])
  by_cases hb : b = TERM
  · exact .inl (by simp [passHeader, hs, hb])
  cases hp : c.pos with
  | none => exact .inl (by simp [passHeader, hs, hb, hp])
  | some p =>
    by_cases hf : p.fits b = true
    · have e : (passHeader c st b).1 = hitByte (drawFrame c p).hit p b := by simp [passHeader, hs, hb, hp, hf]
      rw [e]
      cases (drawFrame c p).hit with
      | none => exact .inl rfl
      | some k => exact (flips k p).imp id (⟨hs, ·⟩)
    · exact .inl (by simp [passHeader, hs, hb, hp, hf])

@[simp] theorem drawFrame_byteDraws (c : TestChannel) (p : HeaderPos) : (drawFrame c p).byteDraws = c.byteDraws := by
  cases p <;> rfl

/-- The header class leaves the draws of the payload class alone. -/
@[simp] theorem passHeader_byteDraws (c : TestChannel) (st : RecState) (b : Byte) :
    (passHeader c st b).2.byteDraws = c.byteDraws := by
  unfold passHeader
  split
  · rfl
  · split
    · rfl
    · split
      · rfl
      · split
        · simp
        · rfl

/-- In Body the header class leaves the byte alone. -/
@[simp] theorem passHeader_body (c : TestChannel) (b : Byte) : (passHeader c .body b).1 = b := by
  simp [passHeader]

/-- Outside Body the payload class does nothing. -/
theorem passPayload_outside (c : TestChannel) (st : RecState) (b : Byte) (h : st ≠ .body) : passPayload c st b = (b, c) := by
  simp [passPayload, h]

/-- A byte that follows no opening TERM passes the header class unchanged. -/
theorem passHeader_outside (c : TestChannel) (st : RecState) (b : Byte) (hs : st ≠ .body) (hb : b ≠ TERM) (hp : c.pos = none) :
    passHeader c st b = (b, c) := by
  simp [passHeader, hs, hb, hp]

/-- A byte at a position of the triplet, while the header is a frame's. -/
theorem passHeader_triplet (c : TestChannel) (st : RecState) (b : Byte) (p : HeaderPos) (hs : st ≠ .body) (hb : b ≠ TERM)
    (hp : c.pos = some p) (hf : p.fits b = true) :
    passHeader c st b = (hitByte (drawFrame c p).hit p b, { drawFrame c p with pos := p.next b }) := by
  simp [passHeader, hs, hb, hp, hf]

/-- A byte that no frame's header has at this position ends the search for a triplet and passes unchanged. -/
theorem passHeader_misfit (c : TestChannel) (st : RecState) (b : Byte) (p : HeaderPos) (hs : st ≠ .body) (hb : b ≠ TERM)
    (hp : c.pos = some p) (hf : p.fits b = false) : passHeader c st b = (b, { c with pos := none }) := by
  simp [passHeader, hs, hb, hp, hf]

end Sys2Proof.Machine
end

