-- ==== Sys2Proof/Laws/Codec.lean ====
section
/-! SUPPORT. Small laws of the codec's functions: the sequence bit in a control byte, the keys, and the two scans of `Decode`. -/

namespace Sys2Proof

/-- A sequence number is 0 or 1. -/
theorem seqBit_cases (s : SeqBit) : s = 0 ∨ s = 1 := by revert s; decide

@[simp] theorem C_I_zero : C_I 0 = 0x00 := by decide
@[simp] theorem C_I_one : C_I 1 = 0x80 := by decide
@[simp] theorem C_RR_zero : C_RR 0 = 0x05 := by decide
@[simp] theorem C_RR_one : C_RR 1 = 0x85 := by decide
@[simp] theorem C_REJ_zero : C_REJ 0 = 0x01 := by decide
@[simp] theorem C_REJ_one : C_REJ 1 = 0x81 := by decide
@[simp] theorem seqOf_C_I (s : SeqBit) : seqOf (C_I s) = s := by revert s; decide

/-- The control byte of an I frame is an I control byte, and only those are (R129). -/
theorem isI_iff (c : Byte) : isI c = true ↔ ∃ s, c = C_I s := by
  constructor
  · intro h
    simp only [isI, Bool.or_eq_true, beq_iff_eq] at h
    rcases h with rfl | rfl
    · exact ⟨0, by decide⟩
    · exact ⟨1, by decide⟩
  · rintro ⟨s, rfl⟩
    revert s; decide

@[simp] theorem xorFold_append (l m : List Byte) : xorFold (l ++ m) = xorFold l ^^^ xorFold m := by
  induction l with
  | nil => simp [xorFold]
  | cons b l ih => simp [xorFold, ih, BitVec.xor_assoc]

/-- The first TERM ends the body (R102). -/
theorem splitTerm_append (body rest : List Byte) (h : TERM ∉ body) :
    splitTerm (body ++ TERM :: rest) = some (body, rest) := by
  induction body with
  | nil => simp [splitTerm]
  | cons b r ih =>
    simp only [List.mem_cons, not_or] at h
    simp [splitTerm, Ne.symm h.1, ih h.2]

/-- A scan for TERM that finds one cuts the list there. -/
theorem splitTerm_eq_some {l body rest : List Byte} (h : splitTerm l = some (body, rest)) :
    l = body ++ TERM :: rest ∧ TERM ∉ body := by
  induction l generalizing body with
  | nil => simp [splitTerm] at h
  | cons b r ih =>
    unfold splitTerm at h
    split_ifs at h with hb
    · simp only [Option.some.injEq, Prod.mk.injEq] at h
      obtain ⟨rfl, rfl⟩ := h
      simp [hb]
    · split at h
      · rename_i body' rest' hs
        simp only [Option.some.injEq, Prod.mk.injEq] at h
        obtain ⟨rfl, rfl⟩ := h
        obtain ⟨h1, h2⟩ := ih hs
        exact ⟨by rw [h1]; rfl, by simp [h2, Ne.symm hb]⟩
      · simp at h

/-- What `Decode` sees of a frame with one opening TERM and a header without TERM (R127). -/
theorem decodeFrame_cons (a c k : Byte) (r : List Byte) (h : a ≠ TERM) :
    decodeFrame (TERM :: a :: c :: k :: r) =
      if k ≠ bcc1 a c then .error .badChecksum
      else if kind c = none then .error .framingError
      else
        match splitTerm r with
        | none => .error .incomplete
        | some (body, rest) =>
          match checkFrame a c body with
          | .ok f => .ok (f, rest)
          | .error e => .error e := by
  simp [decodeFrame, skipTerms, h] <;> rfl

end Sys2Proof

namespace Sys2Proof.Machine

/-- No key holds TERM (R10, R159): a TERM in AddrSeen is always unexpected. -/
theorem term_not_mem_keyOf (p : Phase) (n : SeqBit) : TERM ∉ keyOf p n := by
  rcases seqBit_cases n with rfl | rfl <;> cases p <;> decide

/-- No control byte of a key has TERM as its BCC1 (R97): a TERM in CtrlSeen is always unexpected. -/
theorem bcc1_ne_term_of_mem_keyOf (p : Phase) (n : SeqBit) (c : Byte) (h : c ∈ keyOf p n) : bcc1 ADDR c ≠ TERM := by
  rcases seqBit_cases n with rfl | rfl <;> cases p <;>
    simp only [keyOf, keyUa, keySet, keyReply, keyInfo, keyDisc, ackBit, List.mem_cons, List.not_mem_nil, or_false] at h <;>
    first | contradiction | (rcases h with rfl | rfl <;> decide)

end Sys2Proof.Machine
end

