-- ==== Sys2Proof/Laws/State.lean ====
section
/-! SUPPORT. One lemma per field per shared update of the state, true by rfl: a later proof rewrites with them and unfolds no
record update. -/

namespace Sys2Proof.Machine

variable (s : State) (c : Result) (K : List Byte) (b : Byte)

/-! ### arm -/

@[simp] theorem arm_cfgRole : (arm s).cfgRole = s.cfgRole := rfl
@[simp] theorem arm_cfgRetryLimit : (arm s).cfgRetryLimit = s.cfgRetryLimit := rfl
@[simp] theorem arm_cfgTimeout : (arm s).cfgTimeout = s.cfgTimeout := rfl
@[simp] theorem arm_cfgMaxPayload : (arm s).cfgMaxPayload = s.cfgMaxPayload := rfl
@[simp] theorem arm_cfgChannelId : (arm s).cfgChannelId = s.cfgChannelId := rfl
@[simp] theorem arm_cfgSpeed : (arm s).cfgSpeed = s.cfgSpeed := rfl
@[simp] theorem arm_connState : (arm s).connState = s.connState := rfl
@[simp] theorem arm_nextSeq : (arm s).nextSeq = s.nextSeq := rfl
@[simp] theorem arm_expectedSeq : (arm s).expectedSeq = s.expectedSeq := rfl
@[simp] theorem arm_phase : (arm s).phase = s.phase := rfl
@[simp] theorem arm_recState : (arm s).recState = s.recState := rfl
@[simp] theorem arm_recCtrl : (arm s).recCtrl = s.recCtrl := rfl
@[simp] theorem arm_retryCount : (arm s).retryCount = s.retryCount := rfl
@[simp] theorem arm_timerArmed : (arm s).timerArmed = true := rfl
@[simp] theorem arm_timerRemaining : (arm s).timerRemaining = s.cfgTimeout := rfl
@[simp] theorem arm_rxEsc : (arm s).rxEsc = s.rxEsc := rfl
@[simp] theorem arm_rxOvf : (arm s).rxOvf = s.rxOvf := rfl
@[simp] theorem arm_rxLen : (arm s).rxLen = s.rxLen := rfl
@[simp] theorem arm_rxSeq : (arm s).rxSeq = s.rxSeq := rfl
@[simp] theorem arm_rxXor : (arm s).rxXor = s.rxXor := rfl
@[simp] theorem arm_txBuf : (arm s).txBuf = s.txBuf := rfl
@[simp] theorem arm_txLen : (arm s).txLen = s.txLen := rfl
@[simp] theorem arm_rxBuf : (arm s).rxBuf = s.rxBuf := rfl
@[simp] theorem arm_resultValid : (arm s).resultValid = s.resultValid := rfl
@[simp] theorem arm_result : (arm s).result = s.result := rfl
@[simp] theorem arm_resultRetries : (arm s).resultRetries = s.resultRetries := rfl
@[simp] theorem arm_resultLen : (arm s).resultLen = s.resultLen := rfl
@[simp] theorem arm_txq : (arm s).txq = s.txq := rfl
@[simp] theorem arm_rxq : (arm s).rxq = s.rxq := rfl
@[simp] theorem arm_port : (arm s).port = s.port := rfl
@[simp] theorem arm_agenda : (arm s).agenda = s.agenda := rfl
@[simp] theorem arm_writeFate : (arm s).writeFate = s.writeFate := rfl
@[simp] theorem arm_testChannel : (arm s).testChannel = s.testChannel := rfl
@[simp] theorem arm_bufSize : (arm s).bufSize = s.bufSize := rfl
@[simp] theorem arm_draws : (arm s).draws = s.draws := rfl

/-! ### disarm -/

@[simp] theorem disarm_cfgRole : (disarm s).cfgRole = s.cfgRole := rfl
@[simp] theorem disarm_cfgRetryLimit : (disarm s).cfgRetryLimit = s.cfgRetryLimit := rfl
@[simp] theorem disarm_cfgTimeout : (disarm s).cfgTimeout = s.cfgTimeout := rfl
@[simp] theorem disarm_cfgMaxPayload : (disarm s).cfgMaxPayload = s.cfgMaxPayload := rfl
@[simp] theorem disarm_cfgChannelId : (disarm s).cfgChannelId = s.cfgChannelId := rfl
@[simp] theorem disarm_cfgSpeed : (disarm s).cfgSpeed = s.cfgSpeed := rfl
@[simp] theorem disarm_connState : (disarm s).connState = s.connState := rfl
@[simp] theorem disarm_nextSeq : (disarm s).nextSeq = s.nextSeq := rfl
@[simp] theorem disarm_expectedSeq : (disarm s).expectedSeq = s.expectedSeq := rfl
@[simp] theorem disarm_phase : (disarm s).phase = s.phase := rfl
@[simp] theorem disarm_recState : (disarm s).recState = s.recState := rfl
@[simp] theorem disarm_recCtrl : (disarm s).recCtrl = s.recCtrl := rfl
@[simp] theorem disarm_retryCount : (disarm s).retryCount = s.retryCount := rfl
@[simp] theorem disarm_timerArmed : (disarm s).timerArmed = false := rfl
@[simp] theorem disarm_timerRemaining : (disarm s).timerRemaining = s.timerRemaining := rfl
@[simp] theorem disarm_rxEsc : (disarm s).rxEsc = s.rxEsc := rfl
@[simp] theorem disarm_rxOvf : (disarm s).rxOvf = s.rxOvf := rfl
@[simp] theorem disarm_rxLen : (disarm s).rxLen = s.rxLen := rfl
@[simp] theorem disarm_rxSeq : (disarm s).rxSeq = s.rxSeq := rfl
@[simp] theorem disarm_rxXor : (disarm s).rxXor = s.rxXor := rfl
@[simp] theorem disarm_txBuf : (disarm s).txBuf = s.txBuf := rfl
@[simp] theorem disarm_txLen : (disarm s).txLen = s.txLen := rfl
@[simp] theorem disarm_rxBuf : (disarm s).rxBuf = s.rxBuf := rfl
@[simp] theorem disarm_resultValid : (disarm s).resultValid = s.resultValid := rfl
@[simp] theorem disarm_result : (disarm s).result = s.result := rfl
@[simp] theorem disarm_resultRetries : (disarm s).resultRetries = s.resultRetries := rfl
@[simp] theorem disarm_resultLen : (disarm s).resultLen = s.resultLen := rfl
@[simp] theorem disarm_txq : (disarm s).txq = s.txq := rfl
@[simp] theorem disarm_rxq : (disarm s).rxq = s.rxq := rfl
@[simp] theorem disarm_port : (disarm s).port = s.port := rfl
@[simp] theorem disarm_agenda : (disarm s).agenda = s.agenda := rfl
@[simp] theorem disarm_writeFate : (disarm s).writeFate = s.writeFate := rfl
@[simp] theorem disarm_testChannel : (disarm s).testChannel = s.testChannel := rfl
@[simp] theorem disarm_bufSize : (disarm s).bufSize = s.bufSize := rfl
@[simp] theorem disarm_draws : (disarm s).draws = s.draws := rfl

/-! ### post -/

@[simp] theorem post_cfgRole : (post c s).cfgRole = s.cfgRole := rfl
@[simp] theorem post_cfgRetryLimit : (post c s).cfgRetryLimit = s.cfgRetryLimit := rfl
@[simp] theorem post_cfgTimeout : (post c s).cfgTimeout = s.cfgTimeout := rfl
@[simp] theorem post_cfgMaxPayload : (post c s).cfgMaxPayload = s.cfgMaxPayload := rfl
@[simp] theorem post_cfgChannelId : (post c s).cfgChannelId = s.cfgChannelId := rfl
@[simp] theorem post_cfgSpeed : (post c s).cfgSpeed = s.cfgSpeed := rfl
@[simp] theorem post_connState : (post c s).connState = s.connState := rfl
@[simp] theorem post_nextSeq : (post c s).nextSeq = s.nextSeq := rfl
@[simp] theorem post_expectedSeq : (post c s).expectedSeq = s.expectedSeq := rfl
@[simp] theorem post_phase : (post c s).phase = .idle := rfl
@[simp] theorem post_recState : (post c s).recState = s.recState := rfl
@[simp] theorem post_recCtrl : (post c s).recCtrl = s.recCtrl := rfl
@[simp] theorem post_retryCount : (post c s).retryCount = s.retryCount := rfl
@[simp] theorem post_timerArmed : (post c s).timerArmed = false := rfl
@[simp] theorem post_timerRemaining : (post c s).timerRemaining = s.timerRemaining := rfl
@[simp] theorem post_rxEsc : (post c s).rxEsc = s.rxEsc := rfl
@[simp] theorem post_rxOvf : (post c s).rxOvf = s.rxOvf := rfl
@[simp] theorem post_rxLen : (post c s).rxLen = s.rxLen := rfl
@[simp] theorem post_rxSeq : (post c s).rxSeq = s.rxSeq := rfl
@[simp] theorem post_rxXor : (post c s).rxXor = s.rxXor := rfl
@[simp] theorem post_txBuf : (post c s).txBuf = s.txBuf := rfl
@[simp] theorem post_txLen : (post c s).txLen = s.txLen := rfl
@[simp] theorem post_rxBuf : (post c s).rxBuf = s.rxBuf := rfl
@[simp] theorem post_resultValid : (post c s).resultValid = true := rfl
@[simp] theorem post_result : (post c s).result = c := rfl
@[simp] theorem post_resultRetries : (post c s).resultRetries = s.retryCount := rfl
@[simp] theorem post_resultLen : (post c s).resultLen = 0 := rfl
@[simp] theorem post_txq : (post c s).txq = s.txq := rfl
@[simp] theorem post_rxq : (post c s).rxq = s.rxq := rfl
@[simp] theorem post_port : (post c s).port = s.port := rfl
@[simp] theorem post_agenda : (post c s).agenda = s.agenda := rfl
@[simp] theorem post_writeFate : (post c s).writeFate = s.writeFate := rfl
@[simp] theorem post_testChannel : (post c s).testChannel = s.testChannel := rfl
@[simp] theorem post_bufSize : (post c s).bufSize = s.bufSize := rfl
@[simp] theorem post_draws : (post c s).draws = s.draws := rfl

/-! ### channelError -/

@[simp] theorem channelError_cfgRole : (channelError s).cfgRole = s.cfgRole := rfl
@[simp] theorem channelError_cfgRetryLimit : (channelError s).cfgRetryLimit = s.cfgRetryLimit := rfl
@[simp] theorem channelError_cfgTimeout : (channelError s).cfgTimeout = s.cfgTimeout := rfl
@[simp] theorem channelError_cfgMaxPayload : (channelError s).cfgMaxPayload = s.cfgMaxPayload := rfl
@[simp] theorem channelError_cfgChannelId : (channelError s).cfgChannelId = s.cfgChannelId := rfl
@[simp] theorem channelError_cfgSpeed : (channelError s).cfgSpeed = s.cfgSpeed := rfl
@[simp] theorem channelError_connState : (channelError s).connState = .closed := rfl
@[simp] theorem channelError_nextSeq : (channelError s).nextSeq = s.nextSeq := rfl
@[simp] theorem channelError_expectedSeq : (channelError s).expectedSeq = s.expectedSeq := rfl
@[simp] theorem channelError_phase : (channelError s).phase = .idle := rfl
@[simp] theorem channelError_recState : (channelError s).recState = .idle := rfl
@[simp] theorem channelError_recCtrl : (channelError s).recCtrl = s.recCtrl := rfl
@[simp] theorem channelError_retryCount : (channelError s).retryCount = s.retryCount := rfl
@[simp] theorem channelError_timerArmed : (channelError s).timerArmed = false := rfl
@[simp] theorem channelError_timerRemaining : (channelError s).timerRemaining = s.timerRemaining := rfl
@[simp] theorem channelError_rxEsc : (channelError s).rxEsc = s.rxEsc := rfl
@[simp] theorem channelError_rxOvf : (channelError s).rxOvf = s.rxOvf := rfl
@[simp] theorem channelError_rxLen : (channelError s).rxLen = s.rxLen := rfl
@[simp] theorem channelError_rxSeq : (channelError s).rxSeq = s.rxSeq := rfl
@[simp] theorem channelError_rxXor : (channelError s).rxXor = s.rxXor := rfl
@[simp] theorem channelError_txBuf : (channelError s).txBuf = s.txBuf := rfl
@[simp] theorem channelError_txLen : (channelError s).txLen = s.txLen := rfl
@[simp] theorem channelError_rxBuf : (channelError s).rxBuf = s.rxBuf := rfl
@[simp] theorem channelError_resultValid : (channelError s).resultValid = true := rfl
@[simp] theorem channelError_result : (channelError s).result = .channelError := rfl
@[simp] theorem channelError_resultRetries : (channelError s).resultRetries = s.retryCount := rfl
@[simp] theorem channelError_resultLen : (channelError s).resultLen = 0 := rfl
@[simp] theorem channelError_txq : (channelError s).txq = s.txq := rfl
@[simp] theorem channelError_rxq : (channelError s).rxq = s.rxq := rfl
@[simp] theorem channelError_port : (channelError s).port = s.port := rfl
@[simp] theorem channelError_agenda : (channelError s).agenda = s.agenda := rfl
@[simp] theorem channelError_writeFate : (channelError s).writeFate = s.writeFate := rfl
@[simp] theorem channelError_testChannel : (channelError s).testChannel = s.testChannel := rfl
@[simp] theorem channelError_bufSize : (channelError s).bufSize = s.bufSize := rfl
@[simp] theorem channelError_draws : (channelError s).draws = s.draws := rfl

/-! ### countRetry -/

@[simp] theorem countRetry_cfgRole : (countRetry s).cfgRole = s.cfgRole := rfl
@[simp] theorem countRetry_cfgRetryLimit : (countRetry s).cfgRetryLimit = s.cfgRetryLimit := rfl
@[simp] theorem countRetry_cfgTimeout : (countRetry s).cfgTimeout = s.cfgTimeout := rfl
@[simp] theorem countRetry_cfgMaxPayload : (countRetry s).cfgMaxPayload = s.cfgMaxPayload := rfl
@[simp] theorem countRetry_cfgChannelId : (countRetry s).cfgChannelId = s.cfgChannelId := rfl
@[simp] theorem countRetry_cfgSpeed : (countRetry s).cfgSpeed = s.cfgSpeed := rfl
@[simp] theorem countRetry_connState : (countRetry s).connState = s.connState := rfl
@[simp] theorem countRetry_nextSeq : (countRetry s).nextSeq = s.nextSeq := rfl
@[simp] theorem countRetry_expectedSeq : (countRetry s).expectedSeq = s.expectedSeq := rfl
@[simp] theorem countRetry_phase : (countRetry s).phase = s.phase := rfl
@[simp] theorem countRetry_recState : (countRetry s).recState = s.recState := rfl
@[simp] theorem countRetry_recCtrl : (countRetry s).recCtrl = s.recCtrl := rfl
@[simp] theorem countRetry_retryCount : (countRetry s).retryCount = s.retryCount + 1 := rfl
@[simp] theorem countRetry_timerArmed : (countRetry s).timerArmed = s.timerArmed := rfl
@[simp] theorem countRetry_timerRemaining : (countRetry s).timerRemaining = s.timerRemaining := rfl
@[simp] theorem countRetry_rxEsc : (countRetry s).rxEsc = s.rxEsc := rfl
@[simp] theorem countRetry_rxOvf : (countRetry s).rxOvf = s.rxOvf := rfl
@[simp] theorem countRetry_rxLen : (countRetry s).rxLen = s.rxLen := rfl
@[simp] theorem countRetry_rxSeq : (countRetry s).rxSeq = s.rxSeq := rfl
@[simp] theorem countRetry_rxXor : (countRetry s).rxXor = s.rxXor := rfl
@[simp] theorem countRetry_txBuf : (countRetry s).txBuf = s.txBuf := rfl
@[simp] theorem countRetry_txLen : (countRetry s).txLen = s.txLen := rfl
@[simp] theorem countRetry_rxBuf : (countRetry s).rxBuf = s.rxBuf := rfl
@[simp] theorem countRetry_resultValid : (countRetry s).resultValid = s.resultValid := rfl
@[simp] theorem countRetry_result : (countRetry s).result = s.result := rfl
@[simp] theorem countRetry_resultRetries : (countRetry s).resultRetries = s.resultRetries := rfl
@[simp] theorem countRetry_resultLen : (countRetry s).resultLen = s.resultLen := rfl
@[simp] theorem countRetry_txq : (countRetry s).txq = s.txq := rfl
@[simp] theorem countRetry_rxq : (countRetry s).rxq = s.rxq := rfl
@[simp] theorem countRetry_port : (countRetry s).port = s.port := rfl
@[simp] theorem countRetry_agenda : (countRetry s).agenda = s.agenda := rfl
@[simp] theorem countRetry_writeFate : (countRetry s).writeFate = s.writeFate := rfl
@[simp] theorem countRetry_testChannel : (countRetry s).testChannel = s.testChannel := rfl
@[simp] theorem countRetry_bufSize : (countRetry s).bufSize = s.bufSize := rfl
@[simp] theorem countRetry_draws : (countRetry s).draws = s.draws := rfl

/-! ### recStep -/

@[simp] theorem recStep_cfgRole : (recStep K b s).cfgRole = s.cfgRole := rfl
@[simp] theorem recStep_cfgRetryLimit : (recStep K b s).cfgRetryLimit = s.cfgRetryLimit := rfl
@[simp] theorem recStep_cfgTimeout : (recStep K b s).cfgTimeout = s.cfgTimeout := rfl
@[simp] theorem recStep_cfgMaxPayload : (recStep K b s).cfgMaxPayload = s.cfgMaxPayload := rfl
@[simp] theorem recStep_cfgChannelId : (recStep K b s).cfgChannelId = s.cfgChannelId := rfl
@[simp] theorem recStep_cfgSpeed : (recStep K b s).cfgSpeed = s.cfgSpeed := rfl
@[simp] theorem recStep_connState : (recStep K b s).connState = s.connState := rfl
@[simp] theorem recStep_nextSeq : (recStep K b s).nextSeq = s.nextSeq := rfl
@[simp] theorem recStep_expectedSeq : (recStep K b s).expectedSeq = s.expectedSeq := rfl
@[simp] theorem recStep_phase : (recStep K b s).phase = s.phase := rfl
@[simp] theorem recStep_recState : (recStep K b s).recState = (recNext K b s.recState s.recCtrl).1 := rfl
@[simp] theorem recStep_recCtrl : (recStep K b s).recCtrl = (recNext K b s.recState s.recCtrl).2 := rfl
@[simp] theorem recStep_retryCount : (recStep K b s).retryCount = s.retryCount := rfl
@[simp] theorem recStep_timerArmed : (recStep K b s).timerArmed = s.timerArmed := rfl
@[simp] theorem recStep_timerRemaining : (recStep K b s).timerRemaining = s.timerRemaining := rfl
@[simp] theorem recStep_rxEsc : (recStep K b s).rxEsc = s.rxEsc := rfl
@[simp] theorem recStep_rxOvf : (recStep K b s).rxOvf = s.rxOvf := rfl
@[simp] theorem recStep_rxLen : (recStep K b s).rxLen = s.rxLen := rfl
@[simp] theorem recStep_rxSeq : (recStep K b s).rxSeq = s.rxSeq := rfl
@[simp] theorem recStep_rxXor : (recStep K b s).rxXor = s.rxXor := rfl
@[simp] theorem recStep_txBuf : (recStep K b s).txBuf = s.txBuf := rfl
@[simp] theorem recStep_txLen : (recStep K b s).txLen = s.txLen := rfl
@[simp] theorem recStep_rxBuf : (recStep K b s).rxBuf = s.rxBuf := rfl
@[simp] theorem recStep_resultValid : (recStep K b s).resultValid = s.resultValid := rfl
@[simp] theorem recStep_result : (recStep K b s).result = s.result := rfl
@[simp] theorem recStep_resultRetries : (recStep K b s).resultRetries = s.resultRetries := rfl
@[simp] theorem recStep_resultLen : (recStep K b s).resultLen = s.resultLen := rfl
@[simp] theorem recStep_txq : (recStep K b s).txq = s.txq := rfl
@[simp] theorem recStep_rxq : (recStep K b s).rxq = s.rxq := rfl
@[simp] theorem recStep_port : (recStep K b s).port = s.port := rfl
@[simp] theorem recStep_agenda : (recStep K b s).agenda = s.agenda := rfl
@[simp] theorem recStep_writeFate : (recStep K b s).writeFate = s.writeFate := rfl
@[simp] theorem recStep_testChannel : (recStep K b s).testChannel = s.testChannel := rfl
@[simp] theorem recStep_bufSize : (recStep K b s).bufSize = s.bufSize := rfl
@[simp] theorem recStep_draws : (recStep K b s).draws = s.draws := rfl

end Sys2Proof.Machine
end

