-- ==== Sys2Proof/Laws/Rules.lean ====
section
/-! SUPPORT. What the shared operations do: Tx with its two outcomes, a run of Rx events, the recognizer's step in a phase, and the
receiver's body bytes. -/

namespace Sys2Proof.Machine

/-! ### Tx -/

/-- A write that succeeds: the frame is appended and the rule goes on. -/
theorem transmit_none (l : List Byte) (f : State → State) (s : State) (h : s.writeFate = none) :
    transmit l f s = f { s with txq := s.txq ++ l } := by
  simp [transmit, h]

/-- A write that fails after n bytes. -/
theorem transmit_some (l : List Byte) (f : State → State) (s : State) (n : Nat) (h : s.writeFate = some n) :
    transmit l f s = channelError { s with txq := s.txq ++ l.take n, writeFate := none } := by
  simp [transmit, h]

/-- Everything Tx can do: the frame is appended whole and the rule goes on, or a prefix of it is and the channel error is taken. -/
theorem transmit_cases (l : List Byte) (f : State → State) (s : State) :
    transmit l f s = f { s with txq := s.txq ++ l } ∨
      ∃ n, s.writeFate = some n ∧ transmit l f s = channelError { s with txq := s.txq ++ l.take n, writeFate := none } := by
  rcases Option.eq_none_or_eq_some s.writeFate with h | ⟨n, h⟩
  · exact .inl (transmit_none l f s h)
  · exact .inr ⟨n, h, transmit_some l f s n h⟩

/-! ### Runs of Rx events -/

@[simp] theorem deliver_nil (s : State) : deliver [] s = .next s := rfl

/-- An idle block consumes nothing. -/
theorem deliver_idle (l : List Byte) (s : State) (h : s.phase = .idle) :
    deliver l s = .next { s with rxq := l ++ s.rxq } := by
  cases l with
  | nil => rfl
  | cons b r => simp [deliver, h]

/-- One byte of a run. -/
theorem deliver_cons (b : Byte) (r : List Byte) (s t : State) (h : s.phase ≠ .idle) (hb : rxByte b s = .next t) :
    deliver (b :: r) s = deliver r t := by
  simp [deliver, h, hb]

/-- A run of one byte. -/
theorem deliver_one (b : Byte) (s : State) (h : s.phase ≠ .idle) : deliver [b] s = rxByte b s := by
  simp only [deliver, if_neg h]
  cases rxByte b s <;> rfl

/-- A frame as an instruction is the run of its bytes. -/
theorem exec_frame (i : Instr) (s : State) (h : i.isFrame = true) : exec i s = deliver (encodeWire i) s := by
  cases i <;> simp [Instr.isFrame] at h <;> rfl

/-- A run in two parts, when the first leaves the block waiting. -/
theorem deliver_append (l m : List Byte) (s t : State) (h : deliver l s = .next t) (ht : t.phase ≠ .idle) :
    deliver (l ++ m) s = deliver m t := by
  induction l generalizing s with
  | nil =>
    simp only [deliver_nil, Host.Outcome.next.injEq] at h
    subst h; rfl
  | cons b r ih =>
    unfold deliver at h
    split_ifs at h with hp
    · simp only [Host.Outcome.next.injEq] at h
      subst h; exact absurd hp ht
    · split at h
      · rename_i u hu
        rw [List.cons_append, deliver_cons b (r ++ m) s u hp hu]
        exact ih u h
      · simp at h
      · simp at h

/-! ### The recognizer -/

/-- In the six phases that run the recognizer a byte that does not complete a frame changes REC_STATE and REC_CTRL only. -/
theorem rxByte_scan (b : Byte) (s : State) (hi : s.phase ≠ .idle) (hr : s.phase ≠ .recv)
    (hd : (recNext (keyOf s.phase s.nextSeq) b s.recState s.recCtrl).1 ≠ .done) :
    rxByte b s = .next (recStep (keyOf s.phase s.nextSeq) b s) := by
  cases hp : s.phase <;> simp_all [rxByte, keyOf, rxOpenIWaitUa, rxOpenRWaitSet, rxSendWaitReply, rxCloseIWaitDisc,
    rxCloseRWaitDisc, rxCloseRWaitUa]

/-- The same with the next state named. -/
theorem rxByte_scan_to (b : Byte) (s t : State) (hi : s.phase ≠ .idle) (hr : s.phase ≠ .recv)
    (ht : recStep (keyOf s.phase s.nextSeq) b s = t) (hd : t.recState ≠ .done) : rxByte b s = .next t := by
  subst ht; exact rxByte_scan b s hi hr hd

/-- What a byte can make of REC_STATE and REC_CTRL: Body is never entered, BccSeen only from CtrlSeen, Done only from BccSeen on
a TERM, and a control byte that is held is one of the key (R151). -/
theorem recNext_facts (K : List Byte) (b : Byte) (st : RecState) (x : Byte) (hx : st = .ctrlSeen ∨ st = .bccSeen → x ∈ K) :
    (recNext K b st x).1 ≠ .body ∧ ((recNext K b st x).1 = .bccSeen → st = .ctrlSeen) ∧
    ((recNext K b st x).1 = .done → st = .bccSeen ∧ b = TERM ∧ (recNext K b st x).2 = x) ∧
    ((recNext K b st x).1 = .ctrlSeen ∨ (recNext K b st x).1 = .bccSeen → (recNext K b st x).2 ∈ K) := by
  cases st <;> simp only [recNext] <;> (try split_ifs) <;> simp_all

/-- The first four bytes of a frame of the phase's key, from Idle or TermSeen, leave BccSeen with its control byte (R160). -/
theorem deliver_awaited (c : Byte) (s : State) (hi : s.phase ≠ .idle) (hr : s.phase ≠ .recv)
    (hc : c ∈ keyOf s.phase s.nextSeq) (hs : s.recState = .idle ∨ s.recState = .termSeen) :
    deliver (encodeS ADDR c) s = rxByte TERM { s with recState := .bccSeen, recCtrl := c } := by
  have ha : ADDR ≠ TERM := by decide
  unfold encodeS
  rw [deliver_cons _ _ s { s with recState := .termSeen } hi
      (rxByte_scan_to _ _ _ hi hr (by rcases hs with h | h <;> simp [recStep, recNext, h]) (by simp)),
    deliver_cons _ _ { s with recState := .termSeen } { s with recState := .addrSeen } hi
      (rxByte_scan_to _ _ _ hi hr (by simp [recStep, recNext, ha]) (by simp)),
    deliver_cons _ _ { s with recState := .addrSeen } { s with recState := .ctrlSeen, recCtrl := c } hi
      (rxByte_scan_to _ _ _ hi hr (by simp [recStep, recNext, hc]) (by simp)),
    deliver_cons _ _ { s with recState := .ctrlSeen, recCtrl := c } { s with recState := .bccSeen, recCtrl := c } hi
      (rxByte_scan_to _ _ _ hi hr (by simp [recStep, recNext]) (by simp))]
  exact deliver_one _ _ hi

/-- In P_RECV the header states but CtrlSeen step as the recognizer does. -/
theorem rxByte_recvScan (b : Byte) (s : State) (hp : s.phase = .recv)
    (hs : s.recState = .idle ∨ s.recState = .termSeen ∨ s.recState = .addrSeen) :
    rxByte b s = .next (recStep keyInfo b s) := by
  rcases hs with h | h | h <;> simp [rxByte, hp, rxRecv, h]

/-- In Idle a byte other than TERM changes nothing, in every phase. -/
theorem rxByte_idle_other (b : Byte) (s : State) (hi : s.phase ≠ .idle) (hs : s.recState = .idle) (hb : b ≠ TERM) :
    rxByte b s = .next s := by
  have h : recStep (keyOf s.phase s.nextSeq) b s = s := by
    simp [recStep, recNext, hs, hb]; rw [← hs]
  by_cases hr : s.phase = .recv
  · rw [rxByte_recvScan b s hr (.inl hs)]
    simpa [keyOf, hr] using h
  · rw [rxByte_scan b s hi hr (by simp [recNext, hs, hb]), h]

/-- Bytes without TERM are skipped in Idle, in every phase. -/
theorem deliver_idle_skip (l rest : List Byte) (s : State) (hi : s.phase ≠ .idle) (hs : s.recState = .idle) (hl : TERM ∉ l) :
    deliver (l ++ rest) s = deliver rest s := by
  induction l with
  | nil => rfl
  | cons b r ih =>
    simp only [List.mem_cons, not_or] at hl
    rw [List.cons_append, deliver_cons b _ s s hi (rxByte_idle_other b s hi hs (Ne.symm hl.1)), ih hl.2]

/-- In Idle a TERM opens a frame, in every phase. -/
theorem rxByte_idle_term (s : State) (hi : s.phase ≠ .idle) (hs : s.recState = .idle) :
    rxByte TERM s = .next { s with recState := .termSeen } := by
  by_cases hr : s.phase = .recv
  · rw [rxByte_recvScan TERM s hr (.inl hs)]; simp [recStep, recNext, hs]
  · rw [rxByte_scan TERM s hi hr (by simp [recNext, hs])]; simp [recStep, recNext, hs]

/-! ### The receiver's body -/

/-- The state after the destuffed bytes d have been stored in Body (R254, R258): what fits is in RXBUF from RX_LEN on, all of
it is folded, and RX_OVF tells that some did not fit. -/
structure Stored (d : List Byte) (s t : State) : Prop where
  eq : t = { s with rxBuf := t.rxBuf, rxLen := min (s.rxLen + d.length) (s.cfgMaxPayload + 1),
                    rxOvf := s.rxOvf || decide (s.cfgMaxPayload + 1 < s.rxLen + d.length), rxXor := s.rxXor ^^^ xorFold d }
  get : ∀ j, memGet t.rxBuf j =
    if s.rxLen ≤ j ∧ j < min (s.rxLen + d.length) (s.cfgMaxPayload + 1) then d[j - s.rxLen]? else memGet s.rxBuf j
  wf : Memory.wf s.rxBuf = true → Memory.wf t.rxBuf = true
  below : Memory.below (s.bufSize + 1) s.rxBuf = true → Memory.below (s.bufSize + 1) t.rxBuf = true

/-- Storing nothing. -/
theorem Stored.refl (s : State) (h : s.rxLen ≤ s.cfgMaxPayload + 1) : Stored [] s s where
  eq := by
    rw [show min (s.rxLen + ([] : List Byte).length) (s.cfgMaxPayload + 1) = s.rxLen by simp; omega]
    simp [xorFold, show ¬ (s.cfgMaxPayload + 1 < s.rxLen) by omega]
  get := fun j => by rw [if_neg (by simp; omega)]
  wf := id
  below := id

/-- Store(d) (R254): inside the invariant's bounds it answers, and its effect is `Stored`. -/
theorem storeByte_stored (d : Byte) (s : State) (hl : s.rxLen ≤ s.cfgMaxPayload + 1) (hm : s.cfgMaxPayload ≤ s.bufSize) :
    ∃ t, storeByte d s = .next t ∧ Stored [d] s t := by
  unfold storeByte
  by_cases hr : s.rxLen ≤ s.cfgMaxPayload
  · refine ⟨{ s with rxXor := s.rxXor ^^^ d, rxBuf := memPut s.rxBuf s.rxLen d, rxLen := s.rxLen + 1 }, ?_, ?_⟩
    · simp [State.rxHasRoom, hr, bufWrite, show s.rxLen < s.bufSize + 1 by omega]
    · refine ⟨?_, fun j => ?_, wf_memPut _ _ _, fun h => below_memPut _ _ _ _ h (by omega)⟩
      · rw [show min (s.rxLen + [d].length) (s.cfgMaxPayload + 1) = s.rxLen + 1 by simp; omega]
        simp [xorFold, show ¬ (s.cfgMaxPayload < s.rxLen) by omega]
      · rw [memGet_memPut]
        by_cases hj : j = s.rxLen
        · subst hj; simp; omega
        · rw [if_neg hj, if_neg (by simp; omega)]
  · refine ⟨{ s with rxXor := s.rxXor ^^^ d, rxOvf := true }, ?_, ?_⟩
    · simp [State.rxHasRoom, hr]
    · refine ⟨?_, fun j => ?_, id, id⟩
      · rw [show min (s.rxLen + [d].length) (s.cfgMaxPayload + 1) = s.rxLen by simp; omega]
        simp [xorFold]; omega
      · rw [if_neg (by simp; omega)]

/-- Storing in two parts. -/
theorem Stored.trans {d e : List Byte} {s t u : State} (h1 : Stored d s t) (h2 : Stored e t u) : Stored (d ++ e) s u := by
  have hc : t.cfgMaxPayload = s.cfgMaxPayload := by rw [h1.eq]
  have hL : t.rxLen = min (s.rxLen + d.length) (s.cfgMaxPayload + 1) := by rw [h1.eq]
  have hO : t.rxOvf = (s.rxOvf || decide (s.cfgMaxPayload + 1 < s.rxLen + d.length)) := by rw [h1.eq]
  have hX : t.rxXor = s.rxXor ^^^ xorFold d := by rw [h1.eq]
  have hB : t.bufSize = s.bufSize := by rw [h1.eq]
  refine ⟨?_, fun j => ?_, fun h => h2.wf (h1.wf h), fun h => ?_⟩
  · have hu := h2.eq
    rw [hc, hL, hO, hX, h1.eq] at hu
    rw [hu]
    congr 1
    · simp only [List.length_append, Bool.or_assoc]
      congr 1
      rw [Bool.eq_iff_iff]
      simp only [Bool.or_eq_true, decide_eq_true_eq]
      omega
    · simp only [List.length_append]; omega
    · rw [xorFold_append, BitVec.xor_assoc]
  · rw [h2.get j, h1.get j, hc, hL]
    simp only [List.length_append]
    by_cases ha : s.rxLen ≤ j ∧ j < min (s.rxLen + d.length) (s.cfgMaxPayload + 1)
    · rw [if_neg (by omega), if_pos ha, if_pos (by omega), List.getElem?_append_left (by omega)]
    · by_cases hb : min (s.rxLen + d.length) (s.cfgMaxPayload + 1) ≤ j ∧
          j < min (min (s.rxLen + d.length) (s.cfgMaxPayload + 1) + e.length) (s.cfgMaxPayload + 1)
      · rw [if_pos hb, if_pos (by omega), List.getElem?_append_right (by omega)]
        congr 1; omega
      · rw [if_neg hb, if_neg ha, if_neg (by omega)]
  · rw [← hB]; exact h2.below (by rw [hB]; exact h1.below h)

end Sys2Proof.Machine
end

