-- ==== Sys2Proof/Laws/Invariant.lean ====
section
/-! SUPPORT. How the invariant passes through the shared operations: the environment's side does not matter to it, an operation
that ends meets it, and so does Tx with either outcome. -/

namespace Sys2Proof.Machine

/-- The part of the invariant that holds whatever the phase is. -/
structure State.Base (s : State) : Prop where
  retry : s.retryCount ≤ s.cfgRetryLimit + 1
  maxFits : s.cfgMaxPayload ≤ s.bufSize
  txWf : Memory.wf s.txBuf = true
  rxWf : Memory.wf s.rxBuf = true
  txBelow : Memory.below s.bufSize s.txBuf = true
  rxBelow : Memory.below (s.bufSize + 1) s.rxBuf = true

theorem State.Inv.base {s : State} (h : s.Inv) : s.Base :=
  ⟨h.control.retryRange, h.buffers.maxFits, h.buffers.txWf, h.buffers.rxWf, h.buffers.txBelow, h.buffers.rxBelow⟩

/-- The buffers of the state after reset are in canonical form. -/
theorem reset_memory_wf : Memory.wf State.reset.txBuf = true ∧ Memory.wf State.reset.rxBuf = true := ⟨rfl, rfl⟩

/-- What the environment does to its own side keeps the invariant. -/
theorem State.Inv.environment {s : State} (h : s.Inv) (rxq txq : List Byte) (port : List CmdRecord) (agenda : List Event)
    (fate : Option Nat) (channel : Option TestChannel) :
    State.Inv { s with rxq := rxq, txq := txq, port := port, agenda := agenda, writeFate := fate, testChannel := channel } := by
  obtain ⟨⟨a1, a2, a3, a4, a5, a6, a7, a8, a9, a10, a11, a12, a13⟩, ⟨b1, b2, b3, b4, b5, b6, b7, b8, b9⟩,
    ⟨c1, c2, c3, c4, c5⟩⟩ := h
  exact ⟨⟨a1, a2, a3, a4, a5, a6, a7, a8, a9, a10, a11, a12, a13⟩, ⟨b1, b2, b3, b4, b5, b6, b7, b8, b9⟩,
    ⟨c1, c2, c3, c4, c5⟩⟩

/-- Post ends in a state of the invariant, whatever ran. -/
theorem inv_post (c : Result) (s : State) (h : s.Base) (hc : s.connState = .closed ∨ s.connState = .opened)
    (hr : s.recState = .idle) : (post c s).Inv := by
  obtain ⟨h1, h2, h3, h4, h5, h6⟩ := h
  refine ⟨?_, ?_, ?_⟩ <;> constructor <;> simp_all [post, Phase.timed] <;> rcases hc with h | h <;> simp [h]

/-- A channel error ends in a state of the invariant. -/
theorem inv_channelError (s : State) (h : s.Base) : (channelError s).Inv :=
  inv_post _ _ ⟨h.retry, h.maxFits, h.txWf, h.rxWf, h.txBelow, h.rxBelow⟩ (.inl rfl) rfl

/-- Tx keeps the invariant if the rule's later actions do. -/
theorem inv_transmit (l : List Byte) (f : State → State) (s : State) (h : s.Base)
    (hf : ∀ q, (f { s with txq := q }).Inv) : (transmit l f s).Inv := by
  rcases transmit_cases l f s with e | ⟨n, -, e⟩ <;> rw [e]
  · exact hf _
  · exact inv_channelError _ ⟨h.retry, h.maxFits, h.txWf, h.rxWf, h.txBelow, h.rxBelow⟩

end Sys2Proof.Machine
end

