-- ==== Sys2Proof/Laws/PerInstr.lean ====
section
/-! SUPPORT. Statements about every instruction as syntax, one lemma a constructor: a frame is delimited (R91, R92, R102), a command
is a record with its code (R101). -/

namespace Sys2Proof

theorem term_not_mem_stuff (b : Byte) : TERM ∉ stuff b := by
  unfold stuff
  split_ifs with h
  · rcases h with rfl | rfl <;> decide
  · simp only [not_or] at h; simp [Ne.symm h.1]

theorem term_not_mem_stuffList (l : List Byte) : TERM ∉ stuffList l := by
  induction l with
  | nil => simp [stuffList]
  | cons b r ih => simp [stuffList, term_not_mem_stuff, ih]

/-- The bytes of an instruction on the wire are TERM, the address, bytes without TERM, TERM; a command has no wire bytes, and its
record carries the code of R101. -/
def Laws.Delimited.Statement (i : Instr) : Prop :=
  match encode i with
  | .wire w => ∃ inner, w = TERM :: ADDR :: inner ++ [TERM] ∧ TERM ∉ inner ∧ 2 ≤ inner.length
  | .command r => encodeWire i = [] ∧ decodeCommand r = i

theorem delimited_info (c : Byte) (p : List Byte) (h1 : TERM ≠ c) (h2 : TERM ≠ bcc1 ADDR c) :
    ∃ inner, encodeI ADDR c p = TERM :: ADDR :: inner ++ [TERM] ∧ TERM ∉ inner ∧ 2 ≤ inner.length :=
  ⟨c :: bcc1 ADDR c :: (stuffList p ++ stuff (xorFold p)), by simp [encodeI],
    by simp [h1, h2, term_not_mem_stuffList, term_not_mem_stuff], by simp⟩

theorem delimited_supervisory (c : Byte) (h1 : TERM ≠ c) (h2 : TERM ≠ bcc1 ADDR c) :
    ∃ inner, encodeS ADDR c = TERM :: ADDR :: inner ++ [TERM] ∧ TERM ∉ inner ∧ 2 ≤ inner.length :=
  ⟨[c, bcc1 ADDR c], rfl, by simp [h1, h2], by simp⟩

theorem Laws.Delimited.setFrame : Laws.Delimited.Statement .setFrame := delimited_supervisory _ (by decide) (by decide)
theorem Laws.Delimited.uaFrame : Laws.Delimited.Statement .uaFrame := delimited_supervisory _ (by decide) (by decide)
theorem Laws.Delimited.discFrame : Laws.Delimited.Statement .discFrame := delimited_supervisory _ (by decide) (by decide)
theorem Laws.Delimited.i0Frame (payload : List Byte) : Laws.Delimited.Statement (.i0Frame payload) :=
  delimited_info _ _ (by decide) (by decide)
theorem Laws.Delimited.i1Frame (payload : List Byte) : Laws.Delimited.Statement (.i1Frame payload) :=
  delimited_info _ _ (by decide) (by decide)
theorem Laws.Delimited.rr0Frame : Laws.Delimited.Statement .rr0Frame := delimited_supervisory _ (by decide) (by decide)
theorem Laws.Delimited.rr1Frame : Laws.Delimited.Statement .rr1Frame := delimited_supervisory _ (by decide) (by decide)
theorem Laws.Delimited.rej0Frame : Laws.Delimited.Statement .rej0Frame := delimited_supervisory _ (by decide) (by decide)
theorem Laws.Delimited.rej1Frame : Laws.Delimited.Statement .rej1Frame := delimited_supervisory _ (by decide) (by decide)
theorem Laws.Delimited.openCmd (config : OpenConfig) : Laws.Delimited.Statement (.openCmd config) := ⟨rfl, rfl⟩
theorem Laws.Delimited.sendCmd (data : List Byte) : Laws.Delimited.Statement (.sendCmd data) := ⟨rfl, rfl⟩
theorem Laws.Delimited.receiveCmd : Laws.Delimited.Statement .receiveCmd := ⟨rfl, rfl⟩
theorem Laws.Delimited.closeCmd : Laws.Delimited.Statement .closeCmd := ⟨rfl, rfl⟩

end Sys2Proof
end

