-- ==== Sys2Proof/Tests/Slice0.lean ====
section
/-! SUPPORT. The model's own tests, expected values from spec/95_test_vectors.md and the encoding tables of spec/30_encoding.md, and
for every obligation with hypotheses a witness: concrete states and operands that meet all of them together. -/

namespace Sys2Proof.Tests

open Sys2Proof Sys2Proof.Machine

/-! ## Helpers -/

/-- A field of the next state, if there is one. -/
def after {α : Type} (r : Res) (f : State → α) : Option α :=
  match r with
  | .next s => some (f s)
  | .fault _ => none
  | .refused _ => none

/-- A closed block with a buffer of 16 bytes. -/
def closedAt : State := { State.reset with bufSize := 16 }

/-- An open link, nothing running: payload bound 4, retry limit 2, timeout 3. -/
def openAt : State := { closedAt with connState := .opened, cfgMaxPayload := 4, cfgRetryLimit := 2, cfgTimeout := 3 }

/-- A RECEIVE that scans. -/
def recvAt : State := { openAt with phase := .recv }

/-- A SEND of 41 in flight. -/
def sendAt : State :=
  { openAt with phase := .sendWaitReply, timerArmed := true, timerRemaining := 3, txBuf := [(0, 0x41)], txLen := 1 }

/-- The Initiator's OPEN waits for UA. -/
def openIAt : State :=
  { closedAt with
    connState := .connecting, phase := .openIWaitUa, timerArmed := true, timerRemaining := 3, cfgTimeout := 3,
    cfgRetryLimit := 2 }

/-- The Responder's OPEN waits for SET. -/
def openRAt : State := { closedAt with connState := .connecting, phase := .openRWaitSet }

/-- The Initiator's CLOSE waits for DISC. -/
def closeIAt : State := { openIAt with connState := .closing, phase := .closeIWaitDisc }

/-- The Responder's CLOSE waits for DISC. -/
def closeRAt : State := { closedAt with connState := .closing, phase := .closeRWaitDisc }

/-- The Responder's CLOSE waits for UA. -/
def closeUaAt : State := { closeRAt with phase := .closeRWaitUa }

/-- A configuration whose bound is b. -/
def conf (r : Role) (b : Nat) : OpenConfig := ⟨r, 0, 0, 3, 2, b⟩

/-! ## WellFormed refuses an ill-formed term for each check -/

theorem test_wf_zero : Instr.WellFormed (.openCmd .zero) := by
  simp [Instr.WellFormed, OpenConfig.fits, OpenConfig.zero]

theorem test_wf_channel_refused : ¬ Instr.WellFormed (.openCmd { OpenConfig.zero with channelIdentifier := 2 ^ Config.chidW }) :=
  fun h => Nat.lt_irrefl _ h.1

theorem test_wf_speed_refused : ¬ Instr.WellFormed (.openCmd { OpenConfig.zero with speed := 2 ^ Config.speedW }) :=
  fun h => Nat.lt_irrefl _ h.2.1

theorem test_wf_retry_refused : ¬ Instr.WellFormed (.openCmd { OpenConfig.zero with retryLimit := 2 ^ Config.retryW }) :=
  fun h => Nat.lt_irrefl _ h.2.2.1

theorem test_wf_timeout_refused :
    ¬ Instr.WellFormed (.openCmd { OpenConfig.zero with timeoutDuration := 2 ^ Config.timeoutW }) :=
  fun h => Nat.lt_irrefl _ h.2.2.2.1

theorem test_wf_max_refused : ¬ Instr.WellFormed (.openCmd { OpenConfig.zero with maxPayloadSize := 2 ^ Config.lenW }) :=
  fun h => Nat.lt_irrefl _ h.2.2.2.2

theorem test_wf_send_refused : ¬ Instr.WellFormed (.sendCmd (List.replicate (2 ^ Config.lenW) 0)) := by
  simp [Instr.WellFormed]

/-! ## Decoding, by words written out from the spec's tables -/

/-- spec/30_encoding.md R98: the seven supervisory frames. -/
theorem test_decode_supervisory :
    decode (.wire [0x7E, 0x03, 0x03, 0x00, 0x7E]) = .ok .setFrame ∧ decode (.wire [0x7E, 0x03, 0x07, 0x04, 0x7E]) = .ok .uaFrame ∧
    decode (.wire [0x7E, 0x03, 0x0B, 0x08, 0x7E]) = .ok .discFrame ∧ decode (.wire [0x7E, 0x03, 0x05, 0x06, 0x7E]) = .ok .rr0Frame ∧
    decode (.wire [0x7E, 0x03, 0x85, 0x86, 0x7E]) = .ok .rr1Frame ∧ decode (.wire [0x7E, 0x03, 0x01, 0x02, 0x7E]) = .ok .rej0Frame ∧
    decode (.wire [0x7E, 0x03, 0x81, 0x82, 0x7E]) = .ok .rej1Frame := by decide

/-- spec/95_test_vectors.md, section 3. -/
theorem test_decode_info :
    decode (.wire [0x7E, 0x03, 0x00, 0x03, 0x00, 0x7E]) = .ok (.i0Frame []) ∧
    decode (.wire [0x7E, 0x03, 0x00, 0x03, 0x7D, 0x5E, 0x7D, 0x5E, 0x7E]) = .ok (.i0Frame [0x7E]) ∧
    decode (.wire [0x7E, 0x03, 0x80, 0x83, 0x7D, 0x5D, 0x00, 0x7D, 0x5D, 0x7E]) = .ok (.i1Frame [0x7D, 0x00]) ∧
    decode (.wire [0x7E, 0x03, 0x80, 0x83, 0xFF, 0x00, 0x80, 0x7F, 0x7E]) = .ok (.i1Frame [0xFF, 0x00, 0x80]) := by decide

/-- spec/30_encoding.md R101: the four command codes. -/
theorem test_decode_commands :
    decode (.command ⟨0b00, conf .responder 4, []⟩) = .ok (.openCmd (conf .responder 4)) ∧
    decode (.command ⟨0b01, .zero, [0x41]⟩) = .ok (.sendCmd [0x41]) ∧ decode (.command ⟨0b10, .zero, []⟩) = .ok .receiveCmd ∧
    decode (.command ⟨0b11, .zero, []⟩) = .ok .closeCmd := by decide

/-- spec/95_test_vectors.md, section 3: encoding, the source's scenario S1 among it. -/
theorem test_encode_info :
    encodeWire (.i0Frame [0x7E, 0x41, 0x7D]) = [0x7E, 0x03, 0x00, 0x03, 0x7D, 0x5E, 0x41, 0x7D, 0x5D, 0x42, 0x7E] ∧
    encodeWire (.i1Frame [0x41, 0x3F]) = [0x7E, 0x03, 0x80, 0x83, 0x41, 0x3F, 0x7D, 0x5E, 0x7E] ∧
    encodeWire (.i1Frame [0x5E, 0x7E]) = [0x7E, 0x03, 0x80, 0x83, 0x5E, 0x7D, 0x5E, 0x20, 0x7E] := by decide

/-- spec/95_test_vectors.md, section 4: the verdicts of Decode. -/
theorem test_decode_verdicts :
    decodeBytes [] = .error .incomplete ∧ decodeBytes [0x7E, 0x7E] = .error .incomplete ∧
    decodeBytes [0x7E, 0x03, 0x07, 0x04] = .error .incomplete ∧
    decodeBytes [0x7E, 0x7E, 0x7E, 0x03, 0x07, 0x04, 0x7E] = .ok ⟨0x03, 0x07, none⟩ ∧
    decodeBytes [0x7E, 0x03, 0x07, 0x04, 0x7E, 0x41, 0x42] = .ok ⟨0x03, 0x07, none⟩ ∧
    decodeBytes [0x7E, 0x03, 0x07, 0x05, 0x7E] = .error .badChecksum ∧
    decodeBytes [0x7E, 0x03, 0x40, 0x43, 0x7E] = .error .framingError ∧
    decodeBytes [0x7E, 0x03, 0x07, 0x04, 0x41, 0x7E] = .error .framingError ∧
    decodeBytes [0x7E, 0x01, 0x07, 0x06, 0x7E] = .ok ⟨0x01, 0x07, none⟩ ∧
    decodeBytes [0x41, 0x7E] = .error .framingError ∧ decodeBytes [0x7E, 0x03, 0x00, 0x03, 0x7E] = .error .framingError ∧
    decodeBytes [0x7E, 0x03, 0x00, 0x03, 0x41, 0x7D, 0x7E] = .error .framingError ∧
    decodeBytes [0x7E, 0x03, 0x00, 0x03, 0x41, 0x42, 0x7E] = .error .badChecksum ∧
    decodeBytes [0x7E, 0x03, 0x00, 0x03, 0x7D, 0x41, 0x61, 0x7E] = .ok ⟨0x03, 0x00, some [0x61]⟩ := by decide

/-- spec/95_test_vectors.md, section 3: lenient destuffing. -/
theorem test_destuff :
    destuffList [0x7D, 0x7D] = .ok [0x5D] ∧ destuffList [0x7D, 0x41] = .ok [0x61] ∧ destuffList [0x7D] = .error .framingError ∧
    destuffList [0x7D, 0x5E, 0x41, 0x7D, 0x5D, 0x42] = .ok [0x7E, 0x41, 0x7D, 0x42] := by decide

/-- spec/opcode_table.json: the words of rows of both spaces, and a reserved control byte. -/
theorem test_table_words :
    decodeTableWord 8 0x03 = some .setFrame ∧ decodeTableWord 8 0x80 = some (.i1Frame []) ∧ decodeTableWord 8 0x83 = none ∧
    decodeTableWord 2 0x0 = some (.openCmd .zero) ∧ decodeTableWord 2 0x1 = some (.sendCmd []) ∧
    decodeTableWord 2 0x3 = some .closeCmd ∧ decodeTableWord 8 0x2 = some .receiveCmd := by decide

/-! ## The recognizer and the receiver, byte by byte -/

/-- spec/95_test_vectors.md, section 5: the literal reading D5, and repeated terminators. -/
theorem test_recognizer :
    recRun [0x07] [0x7E, 0x03, 0x7E, 0x03, 0x07, 0x04, 0x7E] (.idle, 0) = (.termSeen, 0) ∧
    recRun [0x07] [0x00, 0xFF, 0x7E, 0x7E, 0x7E, 0x03, 0x07, 0x04, 0x7E] (.idle, 0) = (.done, 0x07) ∧
    recRun [0x07] [0x7E, 0x03, 0x07, 0x04, 0x41] (.idle, 0) = (.idle, 0x07) := by decide

/-- spec/95_test_vectors.md, section 6: the register detail of the first row before its closing TERM. -/
theorem test_receiver_detail :
    after (deliver [0x7E, 0x03, 0x00, 0x03, 0x7D, 0x5E, 0x41, 0x7D, 0x5D] recvAt)
      (fun s => (s.rxEsc, s.rxLen, s.rxXor, s.rxBuf)) = some (false, 3, 0x42, [(0, 0x7E), (1, 0x41), (2, 0x7D)]) := by decide

/-- spec/95_test_vectors.md, section 6: five payload bytes into a bound of four are dropped in silence (D10). -/
theorem test_receiver_overflow :
    after (deliver [0x7E, 0x03, 0x00, 0x03, 0x01, 0x02, 0x03, 0x04, 0x05, 0x01, 0x7E] recvAt)
      (fun s => (s.txq, s.phase, s.recState, s.rxOvf)) = some ([], .recv, .idle, true) := by decide

/-! ## One step of each instruction, run from where the machine fetches it -/

theorem test_set : after (step (openRAt.withFetchWord 8 0x03)) (fun s => (s.connState, s.txq)) =
    some (.opened, [0x7E, 0x03, 0x07, 0x04, 0x7E]) := by decide

theorem test_ua : after (step (openIAt.withFetchWord 8 0x07)) (fun s => (s.connState, s.txq, s.timerArmed)) =
    some (.opened, [], false) := by decide

theorem test_disc_initiator : after (step (closeIAt.withFetchWord 8 0x0B)) (fun s => (s.connState, s.txq)) =
    some (.closed, [0x7E, 0x03, 0x07, 0x04, 0x7E]) := by decide

theorem test_disc_responder : after (step (closeRAt.withFetchWord 8 0x0B)) (fun s => (s.phase, s.txq, s.resultValid)) =
    some (.closeRWaitUa, [0x7E, 0x03, 0x0B, 0x08, 0x7E], false) := by decide

theorem test_i0 : after (step (recvAt.withFetchWord 8 0x00)) (fun s => (s.expectedSeq, s.txq, s.resultLen, s.delivered)) =
    some (1, [0x7E, 0x03, 0x05, 0x06, 0x7E], 0, some []) := by decide

/-- I(1) before any I(0) is a duplicate (D9). -/
theorem test_i1 : after (step (recvAt.withFetchWord 8 0x80)) (fun s => (s.expectedSeq, s.txq, s.phase)) =
    some (0, [0x7E, 0x03, 0x85, 0x86, 0x7E], .recv) := by decide

theorem test_rr0 : after (step (sendAt.withFetchWord 8 0x05)) (fun s => (s.nextSeq, s.result, s.phase)) =
    some (1, .ok, .idle) := by decide

/-- The wrong bit is ignored. -/
theorem test_rr1 : after (step (sendAt.withFetchWord 8 0x85)) (fun s => (s.nextSeq, s.phase, s.recState)) =
    some (0, .sendWaitReply, .termSeen) := by decide

theorem test_rej0 : after (step (sendAt.withFetchWord 8 0x01)) (fun s => (s.txq, s.retryCount, s.phase)) =
    some ([0x7E, 0x03, 0x00, 0x03, 0x41, 0x41, 0x7E], 0, .sendWaitReply) := by decide

theorem test_rej1 : after (step ({ sendAt with nextSeq := 1 }.withFetchWord 8 0x81)) (fun s => s.txq) =
    some [0x7E, 0x03, 0x80, 0x83, 0x41, 0x41, 0x7E] := by decide

theorem test_open : after (step (closedAt.withFetchWord 2 0x0)) (fun s => (s.phase, s.txq)) =
    some (.openIWaitUa, [0x7E, 0x03, 0x03, 0x00, 0x7E]) := by decide

/-- BUF_SIZE = 16 refuses a bound of 17 (D25). -/
theorem test_open_too_large : after (exec (.openCmd (conf .initiator 17)) closedAt) (fun s => (s.result, s.connState)) =
    some (.badCommand, .closed) := by decide

theorem test_send : after (exec (.sendCmd [0x7E, 0x41, 0x7D]) openAt) (fun s => (s.txq, s.txBuf)) =
    some ([0x7E, 0x03, 0x00, 0x03, 0x7D, 0x5E, 0x41, 0x7D, 0x5D, 0x42, 0x7E], [(0, 0x7E), (1, 0x41), (2, 0x7D)]) := by decide

/-- Five bytes into a bound of four (D26). -/
theorem test_send_too_long : after (exec (.sendCmd [1, 2, 3, 4, 5]) openAt) (fun s => (s.result, s.txq)) =
    some (.badCommand, []) := by decide

theorem test_receive : after (step (openAt.withFetchWord 2 0x2)) (fun s => (s.phase, s.txq, s.timerArmed)) =
    some (.recv, [], false) := by decide

theorem test_close : after (step (openAt.withFetchWord 2 0x3)) (fun s => (s.phase, s.txq)) =
    some (.closeIWaitDisc, [0x7E, 0x03, 0x0B, 0x08, 0x7E]) := by decide

/-- spec/95_test_vectors.md, section 7: a timeout of 0 expires at the first tick. -/
theorem test_tick_zero : after (tick (arm { openIAt with cfgTimeout := 0 })) (fun s => (s.retryCount, s.txq)) =
    some (1, [0x7E, 0x03, 0x03, 0x00, 0x7E]) := by decide

/-! ## Witnesses: states of the invariant -/

theorem test_inv_closed : closedAt.Inv :=
  ⟨by constructor <;> decide, by constructor <;> decide, by constructor <;> exact fun h => absurd h (by decide)⟩

theorem test_inv_open : openAt.Inv :=
  ⟨by constructor <;> decide, by constructor <;> decide, by constructor <;> exact fun h => absurd h (by decide)⟩

theorem test_inv_recv : recvAt.Inv :=
  ⟨by constructor <;> decide, by constructor <;> decide, by constructor <;> exact fun h => absurd h (by decide)⟩

theorem test_inv_send : sendAt.Inv :=
  ⟨by constructor <;> decide, by constructor <;> decide, by constructor <;> exact fun h => absurd h (by decide)⟩

theorem test_inv_openI : openIAt.Inv :=
  ⟨by constructor <;> decide, by constructor <;> decide, by constructor <;> exact fun h => absurd h (by decide)⟩

theorem test_inv_openR : openRAt.Inv :=
  ⟨by constructor <;> decide, by constructor <;> decide, by constructor <;> exact fun h => absurd h (by decide)⟩

theorem test_inv_closeR : closeRAt.Inv :=
  ⟨by constructor <;> decide, by constructor <;> decide, by constructor <;> exact fun h => absurd h (by decide)⟩

theorem test_inv_closeUa : closeUaAt.Inv :=
  ⟨by constructor <;> decide, by constructor <;> decide, by constructor <;> exact fun h => absurd h (by decide)⟩

/-- A RECEIVE in the middle of a body: 41 is stored. -/
def bodyAt : State := { recvAt with recState := .body, recCtrl := 0x00, rxLen := 1, rxXor := 0x41, rxBuf := [(0, 0x41)] }

theorem test_inv_body : bodyAt.Inv :=
  ⟨by constructor <;> decide, by constructor <;> decide,
    ⟨by decide, by decide, by decide, by decide, fun _ _ p h => by
      have e : bodyAt.rxBytes bodyAt.rxLen = some [0x41] := by decide
      rw [e] at h; injection h with h; subst h; decide⟩⟩

/-- A RECEIVE with one TERM missing: an empty payload and its BCC2. -/
def lastTermAt : State := { recvAt with recState := .body, recCtrl := 0x00, rxLen := 1, rxBuf := [(0, 0x00)] }

theorem test_inv_lastTerm : lastTermAt.Inv :=
  ⟨by constructor <;> decide, by constructor <;> decide,
    ⟨by decide, by decide, by decide, by decide, fun _ _ p h => by
      have e : lastTermAt.rxBytes lastTermAt.rxLen = some [0x00] := by decide
      rw [e] at h; injection h with h; subst h; decide⟩⟩

/-- A delivered payload waits for the host. -/
def deliveredAt : State := { openAt with resultValid := true, result := .ok, resultLen := 1, rxBuf := [(0, 0x41), (1, 0x41)] }

theorem test_inv_delivered : deliveredAt.Inv :=
  ⟨by constructor <;> decide, by constructor <;> decide, by constructor <;> exact fun h => absurd h (by decide)⟩

/-! ## Witnesses: the codec -/

theorem test_witness_StuffedBytesHideTheTerminator :
    ((0x41 : Byte) ≠ TERM ∧ (0x41 : Byte) ≠ ESC) ∧ stuffList [TERM] = [] ++ ESC :: [0x5E] ∧
    stuffList [0x41, ESC] = [0x41] ++ ESC :: [0x5D] := by decide

theorem test_witness_DestuffingInvertsStuffing :
    encodeCall ADDR 0x07 none = some [0x7E, 0x03, 0x07, 0x04, 0x7E] ∧
    encodeCall ADDR 0x80 (some []) = some [0x7E, 0x03, 0x80, 0x83, 0x00, 0x7E] := by decide

theorem test_witness_DecodeOfEncodeIsTheInstruction :
    Instr.WellFormed (.openCmd .zero) ∧ Instr.WellFormed (.sendCmd []) ∧ Instr.WellFormed (.i0Frame [0x7E]) ∧
    Instr.isFrame (.i0Frame [0x7E]) = true := ⟨test_wf_zero, by simp [Instr.WellFormed], trivial, rfl⟩

theorem test_witness_FrameLayoutAndLength :
    (controlOf .rej1Frame = some 0x81 ∧ infoPayload .rej1Frame = none) ∧
    (controlOf (.i1Frame [0x7E]) = some 0x80 ∧ infoPayload (.i1Frame [0x7E]) = some [0x7E]) ∧
    (controlOf (.i0Frame []) = some 0x00 ∧ infoPayload (.i0Frame []) = some []) := by decide

theorem test_witness_ReservedControlBytesAreRefused : kind 0x02 = none ∧ kind 0x83 = none ∧ kind 0xFF = none := by decide

theorem test_witness_ChecksumsDetectOneBit : flipBit 0x00 0 = 0x01 ∧ flipBit 0x00 7 = 0x80 := by decide

/-! ## Witnesses: the recognizer -/

theorem test_witness_RecognizerTransitionTable :
    ((0x41 : Byte) ≠ TERM ∧ (0x41 : Byte) ≠ ADDR) ∧ C_REJ 1 ∈ keyReply 1 ∧ C_REJ 0 ∉ keyReply 1 ∧
    (0x82 : Byte) = ADDR ^^^ C_REJ 1 ∧ (0x83 : Byte) ≠ ADDR ^^^ C_REJ 1 := by decide

theorem test_witness_RecognizerCompletesExactlyOnAwaitedFrames :
    C_RR 1 ∈ keyOf .sendWaitReply 1 ∧ C_REJ 1 ∈ keyOf .sendWaitReply 1 ∧
    (recRun [C_UA] [0x41, 0x7E, 0x7E, 0x03, 0x07, 0x04, 0x7E] (.idle, 0)).1 = .done := by decide

/-! ## Witnesses: the commands -/

theorem test_witness_OpenLatchesAndStartsTheHandshake :
    (openAt.phase = .idle ∧ ¬(openAt.connState = .closed ∧ (conf .initiator 4).maxPayloadSize ≤ openAt.bufSize)) ∧
    (closedAt.phase = .idle ∧ ¬(closedAt.connState = .closed ∧ (conf .initiator 17).maxPayloadSize ≤ closedAt.bufSize)) ∧
    (closedAt.connState = .closed ∧ (conf .initiator 16).maxPayloadSize ≤ closedAt.bufSize ∧
      (conf .initiator 16).role = .initiator ∧ closedAt.writeFate = none) ∧
    ((conf .responder 0).maxPayloadSize ≤ closedAt.bufSize ∧ (conf .responder 0).role = .responder) := by decide

theorem test_witness_CloseStartsTheTeardown :
    (closedAt.phase = .idle ∧ closedAt.connState ≠ .opened) ∧
    (openAt.phase = .idle ∧ openAt.connState = .opened ∧ openAt.cfgRole = .initiator ∧ openAt.writeFate = none) ∧
    ({ openAt with cfgRole := .responder }.phase = .idle ∧ { openAt with cfgRole := .responder }.cfgRole = .responder) := by
  decide

theorem test_witness_SendCopiesAndTransmits :
    (openAt.phase = .idle ∧ ¬(openAt.connState = .opened ∧ ([1, 2, 3, 4, 5] : List Byte).length ≤ openAt.cfgMaxPayload)) ∧
    (openAt.connState = .opened ∧ ([1, 2, 3, 4] : List Byte).length ≤ openAt.cfgMaxPayload ∧
      ([] : List Byte).length ≤ openAt.cfgMaxPayload ∧ openAt.cfgMaxPayload ≤ openAt.bufSize ∧ openAt.writeFate = none) := by
  decide

theorem test_witness_ReceiveStartsScanning :
    (closedAt.phase = .idle ∧ closedAt.connState ≠ .opened) ∧ (openAt.phase = .idle ∧ openAt.connState = .opened) := by decide

theorem test_witness_BadCommandChangesNothingElse :
    (openAt.phase = .idle ∧ openAt.timerArmed = false ∧ openAt.connState ≠ .closed ∧
      openAt.cfgMaxPayload < ([1, 2, 3, 4, 5] : List Byte).length) ∧
    (closedAt.phase = .idle ∧ closedAt.timerArmed = false ∧ closedAt.bufSize < (conf .initiator 17).maxPayloadSize ∧
      closedAt.connState ≠ .opened) := by decide

theorem test_witness_CommandsWaitWhileAnOperationRuns :
    (recvAt.phase ≠ .idle ∧ encode .closeCmd = .command closeRecord) ∧
    ({ recvAt with agenda := [.cmd] }.phase ≠ .idle ∧ { recvAt with agenda := [.cmd] }.agenda = .cmd :: []) ∧
    ({ openAt with agenda := [.cmd], port := [closeRecord] }.phase = .idle ∧
      { openAt with agenda := [.cmd], port := [closeRecord] }.port = closeRecord :: []) := by decide

/-! ## Witnesses: the handshake and the sender -/

theorem test_witness_SetOpensTheResponder :
    openRAt.phase = .openRWaitSet ∧ openRAt.writeFate = none ∧ openRAt.recState = .idle ∧
    (recStep keySet TERM openRAt).recState ≠ .done ∧
    (recStep keySet TERM { openRAt with recState := .bccSeen, recCtrl := 0x03 }).recState = .done := by decide

theorem test_witness_UaOpensTheInitiatorAndClosesTheResponder :
    (openIAt.phase = .openIWaitUa ∧ openIAt.recState = .idle ∧ (recStep keyUa 0x41 openIAt).recState ≠ .done ∧
      (recStep keyUa TERM { openIAt with recState := .bccSeen, recCtrl := 0x07 }).recState = .done) ∧
    (closeUaAt.phase = .closeRWaitUa ∧ closeUaAt.recState = .idle ∧ (recStep keyUa 0x41 closeUaAt).recState ≠ .done ∧
      (recStep keyUa TERM { closeUaAt with recState := .bccSeen, recCtrl := 0x07 }).recState = .done) := by decide

theorem test_witness_DiscEndsOrAnswersTheTeardown :
    (closeIAt.writeFate = none ∧ closeIAt.phase = .closeIWaitDisc ∧ closeIAt.recState = .idle ∧
      (recStep keyDisc 0x41 closeIAt).recState ≠ .done ∧
      (recStep keyDisc TERM { closeIAt with recState := .bccSeen, recCtrl := 0x0B }).recState = .done) ∧
    (closeRAt.writeFate = none ∧ closeRAt.phase = .closeRWaitDisc ∧ closeRAt.recState = .idle ∧
      (recStep keyDisc 0x41 closeRAt).recState ≠ .done ∧
      (recStep keyDisc TERM { closeRAt with recState := .bccSeen, recCtrl := 0x0B }).recState = .done) := by decide

theorem test_witness_RrFlipsNextSeqAndEndsSend :
    (sendAt.phase = .sendWaitReply ∧ sendAt.nextSeq = 0 ∧ sendAt.recState = .idle) ∧
    ({ sendAt with nextSeq := 1, recState := .termSeen }.nextSeq = 1 ∧
      { sendAt with nextSeq := 1, recState := .termSeen }.recState = .termSeen) := by decide

theorem test_witness_RejRetransmitsWithoutARetry :
    sendAt.phase = .sendWaitReply ∧ sendAt.nextSeq = 0 ∧ sendAt.recState = .idle ∧ sendAt.txPayload = some [0x41] ∧
    sendAt.writeFate = none := by decide

theorem test_witness_FramesNotAwaitedAreIgnored :
    recvAt.Inv ∧ recvAt.phase ≠ .idle ∧ controlOf .setFrame = some 0x03 ∧ (0x03 : Byte) ∉ keyOf recvAt.phase recvAt.nextSeq ∧
    recvAt.recState = .idle := ⟨test_inv_recv, by decide, by decide, by decide, by decide⟩

/-- The other disjuncts of the same hypothesis: part-way through a header. -/
theorem test_witness_FramesNotAwaitedAreIgnored_midHeader :
    State.Inv { recvAt with recState := .addrSeen } ∧ State.Inv { sendAt with recState := .ctrlSeen, recCtrl := 0x05 } :=
  ⟨⟨by constructor <;> decide, by constructor <;> decide, by constructor <;> exact fun h => absurd h (by decide)⟩,
    ⟨by constructor <;> decide, by constructor <;> decide, by constructor <;> exact fun h => absurd h (by decide)⟩⟩

theorem test_witness_BytesWaitWhileTheBlockIsIdle :
    openAt.phase = .idle ∧ Instr.isFrame .uaFrame = true ∧ { openAt with agenda := [.rx] }.agenda = .rx :: [] ∧
    { openAt with agenda := [.frame] }.agenda = .frame :: [] := by decide

/-! ## Witnesses: the receiver -/

theorem test_witness_ExpectedInfoFrameIsAccepted :
    recvAt.phase = .recv ∧ recvAt.recState = .idle ∧ recvAt.expectedSeq = 0 ∧
    ([1, 2, 3, 4] : List Byte).length ≤ recvAt.cfgMaxPayload ∧ ([] : List Byte).length ≤ recvAt.cfgMaxPayload ∧
    recvAt.cfgMaxPayload ≤ recvAt.bufSize ∧ recvAt.writeFate = none := by decide

theorem test_witness_DuplicateIsAcknowledgedNotDelivered :
    recvAt.phase = .recv ∧ recvAt.recState = .idle ∧ recvAt.expectedSeq ≠ 1 ∧
    ([1, 2, 3, 4] : List Byte).length ≤ recvAt.cfgMaxPayload ∧ recvAt.cfgMaxPayload ≤ recvAt.bufSize ∧
    recvAt.writeFate = none := by decide

theorem test_witness_DamagedInfoFrameIsRejected :
    recvAt.phase = .recv ∧ recvAt.recState = .idle ∧ (0x00 : Byte) ≠ xorFold [0x41, 0x42] ∧
    ([0x41, 0x42] : List Byte).length ≤ recvAt.cfgMaxPayload ∧ recvAt.cfgMaxPayload ≤ recvAt.bufSize ∧
    recvAt.writeFate = none := by decide

theorem test_witness_MalformedFramesAreDroppedInSilence :
    ({ recvAt with recState := .ctrlSeen }.phase = .recv ∧ TERM ≠ bcc1 ADDR { recvAt with recState := .ctrlSeen }.recCtrl) ∧
    ({ bodyAt with rxEsc := true }.phase = .recv ∧ { bodyAt with rxEsc := true }.recState = .body) ∧
    ({ bodyAt with rxLen := 0 }.recState = .body ∧ { bodyAt with rxLen := 0 }.rxEsc = false) ∧
    (recvAt.recState = .idle ∧ recvAt.cfgMaxPayload + 1 < ([1, 2, 3, 4, 5, 6] : List Byte).length ∧
      recvAt.cfgMaxPayload ≤ recvAt.bufSize) := by decide

/-- The hypotheses, and inputs that fall under each of the three clauses of the conclusion. -/
theorem test_witness_ReceiverAgreesWithTheDecoder :
    (recvAt.phase = .recv ∧ recvAt.recState = .idle ∧ recvAt.writeFate = none ∧ recvAt.cfgMaxPayload ≤ recvAt.bufSize) ∧
    (ADDR ≠ TERM ∧ C_I 0 ≠ TERM ∧ (0x03 : Byte) ≠ TERM ∧ TERM ∉ ([0x41, 0x41] : List Byte)) ∧
    decodeBytes [TERM, ADDR, 0x00, 0x03, 0x41, 0x41, TERM] = .ok ⟨ADDR, 0x00, some [0x41]⟩ ∧
    decodeBytes [TERM, ADDR, 0x00, 0x03, 0x41, 0x42, TERM] = .error .badChecksum ∧
    decodeBytes [TERM, ADDR, 0x00, 0x03, 0x7D, TERM] = .error .framingError := by decide

theorem test_witness_LostAckCausesNoSecondDelivery :
    recvAt.phase = .recv ∧ recvAt.connState = .opened ∧ recvAt.recState = .idle ∧ recvAt.expectedSeq = 0 ∧
    ([1, 2, 3, 4] : List Byte).length ≤ recvAt.cfgMaxPayload ∧ recvAt.cfgMaxPayload ≤ recvAt.bufSize ∧
    recvAt.writeFate = none := by decide

/-! ## Witnesses: the timer -/

theorem test_witness_TickCountsDownToTheTimeout :
    openAt.timerArmed = false ∧ (openIAt.timerArmed = true ∧ 1 < openIAt.timerRemaining) ∧
    ({ openIAt with timerRemaining := 1 }.timerArmed = true ∧ { openIAt with timerRemaining := 1 }.timerRemaining ≤ 1) ∧
    ({ openIAt with timerRemaining := 0 }.timerRemaining ≤ 1) ∧ openIAt.phase = .openIWaitUa ∧
    closeIAt.phase = .closeIWaitDisc ∧ sendAt.phase = .sendWaitReply ∧ 2 < openIAt.period ∧
    0 < { openIAt with cfgTimeout := 0 }.period := by decide

theorem test_witness_HandshakeTimeoutResendsOrFails :
    ({ openIAt with timerRemaining := 1, retryCount := 2 }.timerArmed = true ∧
      { openIAt with timerRemaining := 1, retryCount := 2 }.cfgRetryLimit < 2 + 1) ∧
    ({ openIAt with timerRemaining := 1, retryCount := 1 }.phase = .openIWaitUa ∧ 1 + 1 ≤ openIAt.cfgRetryLimit ∧
      openIAt.writeFate = none) ∧
    ({ closeIAt with timerRemaining := 1, retryCount := 1 }.phase = .closeIWaitDisc ∧ 1 + 1 ≤ closeIAt.cfgRetryLimit ∧
      closeIAt.writeFate = none) := by decide

theorem test_witness_SendTimeoutResendsOrGivesUp :
    ({ sendAt with timerRemaining := 1, retryCount := 2 }.phase = .sendWaitReply ∧
      { sendAt with timerRemaining := 1, retryCount := 2 }.timerArmed = true ∧ sendAt.cfgRetryLimit < 2 + 1) ∧
    (1 + 1 ≤ sendAt.cfgRetryLimit ∧ { sendAt with timerRemaining := 1, retryCount := 1 }.txPayload = some [0x41] ∧
      sendAt.writeFate = none) := by decide

theorem test_witness_OpenTransmitsSetOncePerRetry :
    (conf .initiator 16).role = .initiator ∧ (conf .initiator 16).maxPayloadSize ≤ closedAt.bufSize ∧
    closedAt.phase = .idle ∧ closedAt.connState = .closed ∧ closedAt.writeFate = none ∧ closedAt.testChannel = none ∧
    { closedAt with port := [openRecord (conf .initiator 16)] }.port = openRecord (conf .initiator 16) :: [] ∧
    2 ≤ (conf .initiator 16).retryLimit ∧ { closedAt with rxq := uaBytes }.rxq = uaBytes ++ [] := by decide

theorem test_witness_SendTransmitsOncePerRetry :
    openAt.phase = .idle ∧ openAt.connState = .opened ∧ ([1, 2, 3, 4] : List Byte).length ≤ openAt.cfgMaxPayload ∧
    openAt.cfgMaxPayload ≤ openAt.bufSize ∧ openAt.writeFate = none ∧
    { openAt with port := [sendRecord [1, 2, 3, 4]] }.port = sendRecord [1, 2, 3, 4] :: [] := by decide

theorem test_witness_NacksNeverEndASend :
    sendAt.phase = .sendWaitReply ∧ sendAt.recState = .idle ∧ sendAt.txPayload = some [0x41] ∧ sendAt.writeFate = none ∧
    sendAt.testChannel = none ∧ { sendAt with agenda := [.frame, .frame] }.agenda = List.replicate 2 .frame ++ [] ∧
    { sendAt with rxq := rejBytes 0 ++ rejBytes 0 }.rxq = copies 2 (rejBytes sendAt.nextSeq) ++ [] := by decide

/-! ## Witnesses: errors, reset, whole-machine rules -/

theorem test_witness_ChannelErrorClosesTheConnection :
    ({ sendAt with agenda := [.chErr] }.agenda = .chErr :: [] ∧ { sendAt with agenda := [.chErr] }.phase ≠ .idle) ∧
    { openAt with agenda := [.chErr] }.phase = .idle := by decide

/-- A write that would succeed: the last byte of SET, an accepted command, an expiry. -/
theorem test_witness_FailedWriteIsAChannelError :
    (closedAt.writeFate = none ∧
      after (runEvent .cmd { closedAt with port := [openRecord (conf .initiator 4)] }) (fun t => t.txq) = some setBytes) ∧
    after (runEvent .tick { openIAt with timerRemaining := 1 }) (fun t => t.txq) = some setBytes ∧
    after (runEvent .rx { openRAt with recState := .bccSeen, recCtrl := 0x03, rxq := [TERM] }) (fun t => t.txq) =
      some uaBytes ∧
    (after (runEvent .cmd { openAt with port := [sendRecord []] }) (fun t => t.txq) = some (encodeI ADDR 0x00 []) ∧
      [sendRecord []].head? = some (sendRecord []) ∧ decodeCommand (sendRecord []) = .sendCmd []) := by decide

/-- The three clauses: nothing sent, a whole frame, a partial frame. -/
theorem test_witness_OnlyWholeFramesAreSent :
    (∀ n, ¬ State.NextEvent { sendAt with agenda := [.tick] } (.drain n)) ∧
    after (step { sendAt with agenda := [.tick] }) (fun t => t.txq) = some [] ∧
    after (step { closedAt with agenda := [.cmd], port := [openRecord (conf .initiator 4)] }) (fun t => t.txq) = some setBytes ∧
    after (step { closedAt with agenda := [.cmd], port := [openRecord (conf .initiator 4)], writeFate := some 2 })
      (fun t => (t.txq, t.result)) = some ([0x7E, 0x03], .channelError) :=
  ⟨fun n => by simp [State.NextEvent], by decide, by decide, by decide⟩

theorem test_witness_ResetGivesTheSpecifiedRegisters :
    { bodyAt with agenda := [.reset] }.agenda = .reset :: [] := by decide

theorem test_witness_ResetStateAcceptsOnlyOpen : (conf .initiator 0).maxPayloadSize ≤ Config.bufSize := Nat.zero_le _

/-- Steps that change each bit, by OPEN, by an ACK, and by an accepted frame. -/
theorem test_witness_SequenceBitsChangeOnlyByTheirRules :
    after (step { closedAt with nextSeq := 1, agenda := [.cmd], port := [openRecord (conf .initiator 4)] })
      (fun t => t.nextSeq) = some 0 ∧
    after (step { sendAt with agenda := [.frame], rxq := rrBytes 0 }) (fun t => t.nextSeq) = some 1 ∧
    after (step { recvAt with agenda := [.frame], rxq := encodeWire (.i0Frame []) }) (fun t => t.expectedSeq) = some 1 := by
  decide

theorem test_witness_ConfigurationIsWrittenOnlyByOpen :
    after (step { closedAt with agenda := [.cmd], port := [openRecord (conf .initiator 4)] }) (fun t => t.config) =
      some (conf .initiator 4) := by decide

/-- An operation that ends, and one that starts, in a step from a state of the invariant. -/
theorem test_witness_OperationsEndWithAResultOfTheirs :
    State.Inv { sendAt with agenda := [.frame], rxq := rrBytes 0 } ∧
    after (step { sendAt with agenda := [.frame], rxq := rrBytes 0 }) (fun t => (t.phase, t.result)) = some (.idle, .ok) ∧
    (¬ State.NextEvent { sendAt with agenda := [.frame], rxq := rrBytes 0 } .reset) ∧
    after (step { openAt with agenda := [.cmd], port := [receiveRecord] }) (fun t => t.phase) = some .recv := by
  refine ⟨⟨?_, ?_, ?_⟩, by decide, by decide, by decide⟩
  · constructor <;> decide
  · constructor <;> decide
  · constructor <;> exact fun h => absurd h (by decide)

theorem test_witness_TimerlessPhasesEndOnlyByByteErrorOrReset :
    State.Inv { openRAt with agenda := [.frame], rxq := setBytes } ∧
    ({ openRAt with agenda := [.frame], rxq := setBytes }.phase = .openRWaitSet) ∧
    after (step { openRAt with agenda := [.frame], rxq := setBytes }) (fun t => t.phase) = some .idle ∧
    lastTermAt.Inv ∧ lastTermAt.phase = .recv ∧ after (rxByte TERM lastTermAt) (fun t => t.phase) = some .idle := by
  refine ⟨⟨?_, ?_, ?_⟩, by decide, by decide, test_inv_lastTerm, by decide, by decide⟩
  · constructor <;> decide
  · constructor <;> decide
  · constructor <;> exact fun h => absurd h (by decide)

theorem test_witness_StepKeepsTheInvariant :
    State.Inv { closedAt with agenda := [.cmd], port := [openRecord (conf .responder 4)] } ∧
    after (step { closedAt with agenda := [.cmd], port := [openRecord (conf .responder 4)] }) (fun t => t.phase) =
      some .openRWaitSet := by
  refine ⟨⟨?_, ?_, ?_⟩, by decide⟩
  · constructor <;> decide
  · constructor <;> decide
  · constructor <;> exact fun h => absurd h (by decide)

theorem test_witness_StepAlwaysAnswersANextState : bodyAt.Inv := test_inv_body

/-- Two states that differ in registers outside their windows: after a reset, and during a SEND beyond TX_LEN. -/
theorem test_witness_UnspecifiedRegistersAreNeverRead :
    (closedAt.Inv ∧ State.Inv { closedAt with recCtrl := 0x55, timerRemaining := 7, cfgRetryLimit := 9, draws := 1 } ∧
      closedAt.Agree { closedAt with recCtrl := 0x55, timerRemaining := 7, cfgRetryLimit := 9, draws := 1 }) ∧
    (sendAt.Inv ∧ State.Inv { sendAt with recCtrl := 0x55, txBuf := [(0, 0x41), (1, 0x99)], rxLen := 3 } ∧
      sendAt.Agree { sendAt with recCtrl := 0x55, txBuf := [(0, 0x41), (1, 0x99)], rxLen := 3 }) := by
  refine ⟨⟨test_inv_closed, ⟨?_, ?_, ?_⟩, ?_⟩, ⟨test_inv_send, ⟨?_, ?_, ?_⟩, ?_⟩⟩
  · constructor <;> decide
  · constructor <;> decide
  · constructor <;> exact fun h => absurd h (by decide)
  · constructor <;> decide
  · constructor <;> decide
  · constructor <;> decide
  · constructor <;> exact fun h => absurd h (by decide)
  · constructor <;> decide

/-! ## Witnesses: the step, the frames, the host -/

theorem test_witness_StepRunsTheDecodedInstruction :
    (Instr.isFrame .uaFrame = true ∧ { openIAt with agenda := [.frame], rxq := uaBytes }.agenda = .frame :: [] ∧
      openIAt.testChannel = none ∧ { openIAt with agenda := [.frame], rxq := uaBytes }.rxq = encodeWire .uaFrame ++ []) ∧
    (decode (.command receiveRecord) = .ok .receiveCmd ∧
      { openAt with agenda := [.cmd], port := [receiveRecord] }.agenda = .cmd :: [] ∧ openAt.phase = .idle ∧
      { openAt with agenda := [.cmd], port := [receiveRecord] }.port = receiveRecord :: []) ∧ closedAt.agenda = [] := by decide

/-- Each conditional clause: a supervisory frame, an I frame in P_RECV, other phases than P_RECV and P_SEND_WAIT_REPLY. -/
theorem test_witness_FramesLeaveTheRestUnchanged :
    (recvAt.Inv ∧ Instr.isFrame (.i0Frame [0x41]) = true ∧ infoPayload (.i0Frame [0x41]) = some [0x41] ∧
      after (exec (.i0Frame [0x41]) recvAt) (fun t => t.rxBuf) = some [(0, 0x41), (1, 0x41)]) ∧
    (openRAt.Inv ∧ openRAt.phase ≠ .recv ∧ openRAt.phase ≠ .sendWaitReply ∧ infoPayload .setFrame = none ∧
      after (exec .setFrame openRAt) (fun t => t.phase) = some .idle) :=
  ⟨⟨test_inv_recv, by decide, by decide, by decide⟩, ⟨test_inv_openR, by decide, by decide, by decide, by decide⟩⟩

theorem test_witness_CommandsLeaveTheRestUnchanged :
    Instr.isFrame (.sendCmd [0x41]) = false ∧ after (exec (.sendCmd [0x41]) openAt) (fun t => t.txBuf) = some [(0, 0x41)] ∧
    Instr.isFrame .closeCmd = false ∧ after (exec .closeCmd openAt) (fun t => t.phase) = some .closeIWaitDisc := by decide

theorem test_witness_HostReadsTheResultRecord :
    (deliveredAt.Inv ∧ deliveredAt.resultValid = true ∧ deliveredAt.result = .ok ∧
      (hostRead deliveredAt).payload = some [0x41] ∧ (hostRead deliveredAt).rxBuf[0]? = some 0x41) ∧
    (bodyAt.Inv ∧ bodyAt.recState = .body ∧ 0 < bodyAt.rxLen ∧ (hostRead bodyAt).rxBuf[0]? = memGet bodyAt.rxBuf 0) ∧
    (closedAt.Inv ∧ closedAt.resultValid = false) ∧
    ¬({ openAt with resultValid := true, result := .badCommand }.resultValid = true ∧
      { openAt with resultValid := true, result := .badCommand }.result = .ok) :=
  ⟨⟨test_inv_delivered, by decide, by decide, by decide, by decide⟩, ⟨test_inv_body, by decide, by decide, by decide⟩,
    ⟨test_inv_closed, by decide⟩, by decide⟩

/-- A test channel whose draws hit, and one whose draws all miss. -/
def hitting : TestChannel := ⟨[some 0, some 23], [some 7], none, none⟩
def missing : TestChannel := ⟨[none], [none], none, none⟩

/-- A channel in the triplet outside Body, one in Body outside the triplet, one that misses, and the keys of a phase. -/
theorem test_witness_TestChannelFlipsAtMostOneBit :
    (hitting.pos = none ∧ passByte hitting .body 0x00 = (0x80, ⟨[some 0, some 23], [], none, none⟩)) ∧
    (RecState.termSeen ≠ .body ∧ (passByte ⟨[some 0], [], none, some .address⟩ .termSeen 0x03).1 = 0x83) ∧
    ((∀ d ∈ missing.frameDraws, d = none) ∧ (∀ d ∈ missing.byteDraws, d = none) ∧ missing.hit = none) ∧
    ({ hitting with pos := some .address }.pos = some .address ∧ hitting.frameDraws = some 0 :: [some 23]) ∧
    (RecState.addrSeen ≠ .body ∧ kind 0x05 ≠ none ∧ { hitting with pos := some .control }.pos = some .control ∧
      { hitting with pos := some (.bcc 0x05) }.pos = some (.bcc 0x05)) ∧
    (RecState.ctrlSeen ≠ .body ∧ (0x07 : Byte) ≠ TERM ∧ (0x07 : Byte) ≠ ADDR ∧ kind 0x40 = none ∧
      (0x07 : Byte) ≠ bcc1 ADDR 0x05) ∧ hitting.byteDraws = some 7 :: [] ∧
    C_REJ 0 ∈ keyOf .sendWaitReply 0 := by decide

/-- The bytes through the test channel, with the consumer's REC_STATE at each. -/
def passAll : List (RecState × Byte) → TestChannel → List Byte × TestChannel
  | [], c => ([], c)
  | (st, b) :: r, c =>
    ((passByte c st b).1 :: (passAll r (passByte c st b).2).1, (passAll r (passByte c st b).2).2)

/-- R291, D31: after the false start 7E 41 the frame RR0 has its own draw, and k = 9 inverts bit 6 of its control byte; a TERM that a
restart to Idle makes the first of a frame is no byte of the triplet. -/
theorem test_channel_finds_the_triplet :
    (passAll [(.idle, TERM), (.termSeen, 0x41), (.idle, TERM), (.idle, TERM), (.termSeen, 0x03), (.addrSeen, 0x05), (.idle, 0x06)]
      ⟨[some 9], [], none, none⟩) = ([TERM, 0x41, TERM, TERM, 0x03, 0x45, 0x06], ⟨[], [], some 9, none⟩) := by decide

/-- R291, R103: the bytes after a frame's closing TERM are of no frame, and none is inverted. -/
theorem test_channel_spares_what_follows_a_closing_term :
    (passAll [(.bccSeen, TERM), (.idle, 0x7F), (.idle, 0x03), (.idle, 0x05), (.idle, 0x06)] ⟨[some 7], [], none, none⟩) =
      ([TERM, 0x7F, 0x03, 0x05, 0x06], ⟨[some 7], [], none, none⟩) := by decide

/-- A link of two open ends. -/
def linkAt : Link :=
  ⟨{ openAt with port := [sendRecord [0x7E]], agenda := [.cmd, .frame] },
    { openAt with port := [receiveRecord], agenda := [.cmd, .frame] }⟩

theorem test_witness_LinkMovesThePayloadOnce :
    linkAt.a.phase = .idle ∧ linkAt.b.phase = .idle ∧ linkAt.a.connState = .opened ∧ linkAt.b.connState = .opened ∧
    linkAt.a.nextSeq = linkAt.b.expectedSeq ∧ ([0x7E] : List Byte).length ≤ linkAt.a.cfgMaxPayload ∧
    ([0x7E] : List Byte).length ≤ linkAt.b.cfgMaxPayload ∧ linkAt.a.cfgMaxPayload ≤ linkAt.a.bufSize ∧
    linkAt.b.cfgMaxPayload ≤ linkAt.b.bufSize ∧ linkAt.a.writeFate = none ∧ linkAt.b.writeFate = none ∧
    linkAt.a.testChannel = none ∧ linkAt.b.testChannel = none ∧ linkAt.a.txq = [] ∧ linkAt.b.txq = [] ∧ linkAt.a.rxq = [] ∧
    linkAt.b.rxq = [] ∧ linkAt.a.port = [sendRecord [0x7E]] ∧ linkAt.b.port = [receiveRecord] ∧
    linkAt.a.agenda = [.cmd, .frame] ∧ linkAt.b.agenda = [.cmd, .frame] := by decide

end Sys2Proof.Tests
end

section
/-! PROOFS. Decoding inverts encoding at the front of any byte stream (R128, R130), and a step as `exec` of the instruction that
decodes there (R15, R63, R68). -/

namespace Sys2Proof

/-! ### Destuffing what was stuffed (R130) -/

/-- An ESC and the byte after it are one raw byte (R121). -/
theorem destuffList_esc_cons {x : Byte} {r d : List Byte} (h : destuffList r = .ok d) :
    destuffList (ESC :: x :: r) = .ok ((x ^^^ STUFF_XOR) :: d) := by
  rw [destuffList, if_pos rfl]
  simp only [h]

/-- A byte that is no ESC stands for itself (R121). -/
theorem destuffList_cons_of_ne_esc {b : Byte} {r d : List Byte} (hb : b ≠ ESC) (h : destuffList r = .ok d) :
    destuffList (b :: r) = .ok (b :: d) := by
  rw [destuffList.eq_def]
  simp only [if_neg hb, h]

theorem destuffList_stuff_append (b : Byte) {r d : List Byte} (h : destuffList r = .ok d) :
    destuffList (stuff b ++ r) = .ok (b :: d) := by
  by_cases hb : b = TERM ∨ b = ESC
  · have hx : (b ^^^ STUFF_XOR) ^^^ STUFF_XOR = b := by rw [BitVec.xor_assoc, BitVec.xor_self, BitVec.xor_zero]
    have hs : stuff b ++ r = ESC :: (b ^^^ STUFF_XOR) :: r := by simp [stuff, hb]
    rw [hs, destuffList_esc_cons h, hx]
  · have hs : stuff b ++ r = b :: r := by simp [stuff, hb]
    rw [hs, destuffList_cons_of_ne_esc (fun he => hb (.inr he)) h]

theorem destuffList_stuffList_append (l : List Byte) {r d : List Byte} (h : destuffList r = .ok d) :
    destuffList (stuffList l ++ r) = .ok (l ++ d) := by
  induction l with
  | nil => exact h
  | cons b l ih => rw [stuffList, List.append_assoc, destuffList_stuff_append b ih, List.cons_append]

/-- The stuffed payload and BCC2 of an I frame destuff to the payload and its fold (R125, R127). -/
theorem destuffList_infoBody (p : List Byte) :
    destuffList (stuffList p ++ stuff (xorFold p)) = .ok (p ++ [xorFold p]) := by
  have hb : destuffList (stuff (xorFold p)) = .ok [xorFold p] := by
    simpa using destuffList_stuff_append (xorFold p) (r := []) rfl
  exact destuffList_stuffList_append p hb

theorem term_not_mem_infoBody (p : List Byte) : TERM ∉ stuffList p ++ stuff (xorFold p) := by
  simp [term_not_mem_stuffList, term_not_mem_stuff]

/-! ### The verdict on a frame (R127) -/

theorem checkBody_append_xorFold (a c : Byte) (p : List Byte) :
    checkBody a c (p ++ [xorFold p]) = .ok ⟨a, c, some p⟩ := by
  simp [checkBody]

theorem checkFrame_infoBody {a c : Byte} (p : List Byte) (hc : isI c = true) :
    checkFrame a c (stuffList p ++ stuff (xorFold p)) = .ok ⟨a, c, some p⟩ := by
  simp [checkFrame, hc, destuffList_infoBody, checkBody_append_xorFold]

theorem checkFrame_nil {a c : Byte} (hc : isI c = false) : checkFrame a c [] = .ok ⟨a, c, none⟩ := by
  simp [checkFrame, hc]

/-- A frame with the right BCC1, a control byte of the table and a body without TERM decodes to the verdict on that body,
whatever follows its closing TERM. -/
theorem decodeFrame_of_checkFrame {a c : Byte} {body : List Byte} {f : Frame} (rest : List Byte) (ha : a ≠ TERM)
    (hk : kind c ≠ none) (hb : TERM ∉ body) (hf : checkFrame a c body = .ok f) :
    decodeFrame (TERM :: a :: c :: bcc1 a c :: (body ++ TERM :: rest)) = .ok (f, rest) := by
  simp [decodeFrame_cons _ _ _ _ ha, hk, splitTerm_append _ _ hb, hf]

theorem kind_ne_none_of_isI {c : Byte} (hc : isI c = true) : kind c ≠ none := by
  obtain ⟨s, rfl⟩ := (isI_iff c).1 hc
  revert s; decide

theorem decodeFrame_encodeI_append {a c : Byte} (p rest : List Byte) (ha : a ≠ TERM) (hc : isI c = true) :
    decodeFrame (encodeI a c p ++ rest) = .ok (⟨a, c, some p⟩, rest) := by
  have h := decodeFrame_of_checkFrame rest ha (kind_ne_none_of_isI hc) (term_not_mem_infoBody p)
    (checkFrame_infoBody (a := a) p hc)
  simpa [encodeI] using h

theorem decodeFrame_encodeS_append {a c : Byte} (rest : List Byte) (ha : a ≠ TERM) (hk : kind c ≠ none)
    (hc : isI c = false) : decodeFrame (encodeS a c ++ rest) = .ok (⟨a, c, none⟩, rest) :=
  decodeFrame_of_checkFrame rest ha hk (List.not_mem_nil) (checkFrame_nil hc)

/-! ### The instruction at the front of a stream (R128) -/

theorem decodeStream_of_decodeFrame {w rest : List Byte} {f : Frame} {i : Instr} (hf : decodeFrame w = .ok (f, rest))
    (hi : f.toInstr = .ok i) : decodeStream w = .ok (i, rest) := by
  simp [decodeStream, hf, hi]

theorem decodeStream_encodeS_append {c : Byte} {i : Instr} (rest : List Byte) (hk : kind c ≠ none) (hc : isI c = false)
    (hi : Frame.toInstr ⟨ADDR, c, none⟩ = .ok i) : decodeStream (encodeS ADDR c ++ rest) = .ok (i, rest) :=
  decodeStream_of_decodeFrame (decodeFrame_encodeS_append rest (by decide) hk hc) hi

theorem decodeStream_encodeI_append {c : Byte} {i : Instr} (p rest : List Byte) (hc : isI c = true)
    (hi : Frame.toInstr ⟨ADDR, c, some p⟩ = .ok i) : decodeStream (encodeI ADDR c p ++ rest) = .ok (i, rest) :=
  decodeStream_of_decodeFrame (decodeFrame_encodeI_append p rest (by decide) hc) hi

/-- A frame instruction is found at the front of a stream, whatever follows it (R128). -/
theorem decodeStream_encodeWire_append (i : Instr) (rest : List Byte) (h : i.isFrame = true) :
    decodeStream (encodeWire i ++ rest) = .ok (i, rest) := by
  cases i with
  | setFrame => exact decodeStream_encodeS_append rest (by decide) (by decide) rfl
  | uaFrame => exact decodeStream_encodeS_append rest (by decide) (by decide) rfl
  | discFrame => exact decodeStream_encodeS_append rest (by decide) (by decide) rfl
  | i0Frame p => exact decodeStream_encodeI_append p rest (by decide) rfl
  | i1Frame p => exact decodeStream_encodeI_append p rest (by decide) rfl
  | rr0Frame => exact decodeStream_encodeS_append rest (by decide) (by decide) rfl
  | rr1Frame => exact decodeStream_encodeS_append rest (by decide) (by decide) rfl
  | rej0Frame => exact decodeStream_encodeS_append rest (by decide) (by decide) rfl
  | rej1Frame => exact decodeStream_encodeS_append rest (by decide) (by decide) rfl
  | openCmd _ | sendCmd _ | receiveCmd | closeCmd => simp [Instr.isFrame] at h

theorem decode_wire_of_decodeStream {w rest : List Byte} {i : Instr} (h : decodeStream w = .ok (i, rest)) :
    decode (.wire w) = .ok i := by
  simp [decode, h]

theorem decode_command (r : CmdRecord) : decode (.command r) = .ok (decodeCommand r) := rfl

end Sys2Proof

namespace Sys2Proof.Machine

/-! ### A step, by the event the agenda offers (R15, R60) -/

theorem step_of_agenda_nil {s : State} (h : s.agenda = []) : step s = .next s := by
  simp [step, h]

theorem step_of_agenda_cons {s : State} {e : Event} {rest : List Event} (h : s.agenda = e :: rest) :
    step s = runEvent e { s with agenda := rest } := by
  simp [step, h]

theorem fetchFrame_encodeWire_append (i : Instr) (rest : List Byte) (h : i.isFrame = true) :
    fetchFrame (encodeWire i ++ rest) = some (i, rest) := by
  simp [fetchFrame, decodeStream_encodeWire_append i rest h]

/-- The frame event with a whole frame at the front of RXQ (R63; log 4). -/
theorem eventFrame_of_rxq {i : Instr} {s : State} {q : List Byte} (hi : i.isFrame = true) (hc : s.testChannel = none)
    (hq : s.rxq = encodeWire i ++ q) : eventFrame s = exec i { s with rxq := q } := by
  simp [eventFrame, hc, hq, fetchFrame_encodeWire_append i q hi]

/-- The Cmd event in P_IDLE with a command at the port (R68). -/
theorem eventCmd_of_port {s : State} {r : CmdRecord} {q : List CmdRecord} (hp : s.phase = .idle) (hq : s.port = r :: q) :
    eventCmd s = exec (decodeCommand r) { s with port := q } := by
  simp [eventCmd, hp, hq]

/-- Settles O49: the agenda's event is applied, and what it executes is what decodes at the front of RXQ or of the port. -/
theorem stepRunsTheDecodedInstruction : Obligations.StepRunsTheDecodedInstruction := by
  refine ⟨fun i s q rest hi _ ha hc hq => ⟨?_, ?_⟩, fun i s r q rest hd _ ha hp hq => ?_, fun s => step_of_agenda_nil⟩
  · rw [hq]
    exact decode_wire_of_decodeStream (decodeStream_encodeWire_append i q hi)
  · rw [step_of_agenda_cons ha]
    exact eventFrame_of_rxq hi hc hq
  · obtain rfl : decodeCommand r = i := Except.ok.inj ((decode_command r).symm.trans hd)
    rw [step_of_agenda_cons ha]
    exact eventCmd_of_port hp hq

end Sys2Proof.Machine
end

section
/-! PROOFS. The invariant: every rule answers a next state and keeps it (R46, R300). -/

namespace Sys2Proof.Machine

/-! ### Predicates on the outcome of a rule -/

/-- The rule answers a next state, and that state meets the invariant. -/
def Keeps (r : Res) : Prop := ∃ t, r = .next t ∧ t.Inv

theorem Keeps.next {t : State} (h : t.Inv) : Keeps (.next t) := ⟨t, rfl, h⟩

theorem Keeps.inv {r : Res} {t : State} (h : Keeps r) (ht : r = .next t) : t.Inv := by
  obtain ⟨u, hu, hi⟩ := h
  obtain rfl : u = t := Host.Outcome.next.inj (hu.symm.trans ht)
  exact hi

/-! ### Waiting states -/

/-- An operation runs and the recognizer is in Idle: what the rules that start, resend or rescan establish. -/
structure State.Waiting (s : State) : Prop extends State.Base s where
  running : s.phase ≠ .idle
  recIdle : s.recState = .idle
  noResult : s.resultValid = false
  armedIff : s.timerArmed = s.phase.timed
  within : s.timerArmed = true → s.retryCount ≤ s.cfgRetryLimit
  connecting : s.connState = .connecting ↔ s.phase = .openIWaitUa ∨ s.phase = .openRWaitSet
  closing : s.connState = .closing ↔ s.phase = .closeIWaitDisc ∨ s.phase = .closeRWaitDisc ∨ s.phase = .closeRWaitUa
  transfer : s.phase = .sendWaitReply ∨ s.phase = .recv → s.connState = .opened
  txFits : s.phase = .sendWaitReply → s.txLen ≤ s.cfgMaxPayload
  txWritten : s.phase = .sendWaitReply → ∀ i, i < s.txLen → (memGet s.txBuf i).isSome

/-- Outside Body the receive-body registers are under no constraint. -/
theorem body_of_ne {s : State} (h : s.recState ≠ .body) : s.Body :=
  ⟨fun e => absurd e h, fun e => absurd e h, fun e => absurd e h, fun e => absurd e h, fun e => absurd e h⟩

theorem State.Waiting.inv {s : State} (h : s.Waiting) : s.Inv where
  control :=
    { h with
      idleConn := fun e => absurd e h.running
      bodyInRecv := fun e => by simp [h.recIdle] at e
      neverDone := by simp [h.recIdle]
      noBccInRecv := by simp [h.recIdle]
      idleRec := fun _ => h.recIdle
      retries := h.within
      retryRange := h.retry
      ctrlInKey := by simp [h.recIdle]
      resultInvalid := fun _ => h.noResult }
  buffers :=
    { h with
      resultFits := fun e => by simp [h.noResult] at e
      resultWritten := fun e => by simp [h.noResult] at e }
  body := body_of_ne (by simp [h.recIdle])

/-- A running operation waits again once its recognizer is put back to Idle. -/
theorem State.Inv.waiting {s : State} (h : s.Inv) (hp : s.phase ≠ .idle) : State.Waiting { s with recState := .idle } :=
  { h.base, h.control, h.buffers with
    running := hp
    recIdle := rfl
    noResult := h.control.resultInvalid hp
    within := h.control.retries }

/-! ### The recognizer -/

/-- REC_STATE and REC_CTRL may take any values that the phase allows outside Body and Done. -/
theorem State.Inv.setRec {s : State} (h : s.Inv) {r : RecState} {c : Byte} (hp : s.phase ≠ .idle) (hr : r ≠ .body)
    (hd : r ≠ .done) (hb : s.phase = .recv → r ≠ .bccSeen)
    (hc : r = .ctrlSeen ∨ r = .bccSeen → c ∈ keyOf s.phase s.nextSeq) :
    State.Inv { s with recState := r, recCtrl := c } where
  control :=
    { h.control with
      bodyInRecv := fun e => absurd e hr
      neverDone := hd
      noBccInRecv := hb
      idleRec := fun e => absurd e hp
      ctrlInKey := fun e => hc (e.imp_right fun e => e.resolve_right hr) }
  buffers := { h.buffers with }
  body := body_of_ne hr

/-- A byte that completes no frame, in any phase whose key the recognizer uses. -/
theorem State.Inv.recStep {s : State} {b : Byte} (h : s.Inv) (hp : s.phase ≠ .idle)
    (hb : s.phase = .recv → s.recState ≠ .ctrlSeen)
    (hd : (recStep (keyOf s.phase s.nextSeq) b s).recState ≠ .done) : (recStep (keyOf s.phase s.nextSeq) b s).Inv := by
  obtain ⟨hbody, hbcc, -, hkey⟩ := recNext_facts (keyOf s.phase s.nextSeq) b s.recState s.recCtrl
    fun e => h.control.ctrlInKey (e.imp_right .inl)
  exact h.setRec hp hbody hd (fun e e' => hb e (hbcc e')) hkey

/-! ### Bytes in the phases that await a supervisory frame -/

theorem rxOpenIWaitUa_keeps {s : State} (b : Byte) (h : s.Inv) (hp : s.phase = .openIWaitUa) :
    Keeps (rxOpenIWaitUa b s) := by
  have hk : keyUa = keyOf s.phase s.nextSeq := by simp [keyOf, hp]
  unfold rxOpenIWaitUa
  rw [hk]
  split_ifs with hd
  · exact .next (inv_post _ _ { h.base with } (.inr rfl) rfl)
  · exact .next (h.recStep (by simp [hp]) (by simp [hp]) hd)

theorem rxOpenRWaitSet_keeps {s : State} (b : Byte) (h : s.Inv) (hp : s.phase = .openRWaitSet) :
    Keeps (rxOpenRWaitSet b s) := by
  have hk : keySet = keyOf s.phase s.nextSeq := by simp [keyOf, hp]
  unfold rxOpenRWaitSet
  rw [hk]
  split_ifs with hd
  · exact .next (inv_transmit _ _ _ { h.base with } fun q => inv_post _ _ { h.base with } (.inr rfl) rfl)
  · exact .next (h.recStep (by simp [hp]) (by simp [hp]) hd)

theorem rxCloseIWaitDisc_keeps {s : State} (b : Byte) (h : s.Inv) (hp : s.phase = .closeIWaitDisc) :
    Keeps (rxCloseIWaitDisc b s) := by
  have hk : keyDisc = keyOf s.phase s.nextSeq := by simp [keyOf, hp]
  unfold rxCloseIWaitDisc
  rw [hk]
  split_ifs with hd
  · exact .next (inv_transmit _ _ _ { h.base with } fun q => inv_post _ _ { h.base with } (.inl rfl) rfl)
  · exact .next (h.recStep (by simp [hp]) (by simp [hp]) hd)

theorem rxCloseRWaitDisc_keeps {s : State} (b : Byte) (h : s.Inv) (hp : s.phase = .closeRWaitDisc) :
    Keeps (rxCloseRWaitDisc b s) := by
  have hk : keyDisc = keyOf s.phase s.nextSeq := by simp [keyOf, hp]
  have hc : s.connState = .closing := h.control.closing.2 (by simp [hp])
  have ha : s.timerArmed = false := by rw [h.control.armedIff, hp]; rfl
  unfold rxCloseRWaitDisc
  rw [hk]
  split_ifs with hd
  · refine .next (inv_transmit _ _ _ { h.base with } fun q => State.Waiting.inv
      { h.waiting (by simp [hp]) with
        running := by simp
        armedIff := ha
        connecting := by simp [hc]
        closing := by simp [hc]
        transfer := by simp
        txFits := by simp
        txWritten := by simp })
  · exact .next (h.recStep (by simp [hp]) (by simp [hp]) hd)

theorem rxCloseRWaitUa_keeps {s : State} (b : Byte) (h : s.Inv) (hp : s.phase = .closeRWaitUa) :
    Keeps (rxCloseRWaitUa b s) := by
  have hk : keyUa = keyOf s.phase s.nextSeq := by simp [keyOf, hp]
  unfold rxCloseRWaitUa
  rw [hk]
  split_ifs with hd
  · exact .next (inv_post _ _ { h.base with } (.inl rfl) rfl)
  · exact .next (h.recStep (by simp [hp]) (by simp [hp]) hd)

/-! ### The sender -/

/-- The frame in flight can always be read, and sending it leaves the block waiting for the reply. -/
theorem sendFrame_keeps {s : State} (hb : s.Base) (hn : s.txLen ≤ s.cfgMaxPayload)
    (hw : State.Waiting { arm s with recState := .idle, phase := .sendWaitReply }) : Keeps (sendFrame s) := by
  have hm := hb.maxFits
  obtain ⟨p, hr, -⟩ := bufReadRun_isSome s.bufSize (Config.unwrittenTx s.draws) s.txBuf s.txLen 0 (by omega)
  have hp : s.txPayload = some p := hr
  simp only [sendFrame, hp]
  exact .next (inv_transmit _ _ _ hb fun q => State.Waiting.inv { hw with })

theorem rxSendWaitReply_keeps {s : State} (b : Byte) (h : s.Inv) (hp : s.phase = .sendWaitReply) :
    Keeps (rxSendWaitReply b s) := by
  have hk : keyReply s.nextSeq = keyOf s.phase s.nextSeq := by simp [keyOf, hp]
  have hi : s.phase ≠ .idle := by simp [hp]
  have hc : s.connState = .opened := h.control.transfer (.inl hp)
  have ha : s.timerArmed = true := by rw [h.control.armedIff, hp]; rfl
  unfold rxSendWaitReply
  rw [hk]
  split_ifs with hd hack hnack
  · exact .next (inv_post _ _ { h.base with } (.inr hc) rfl)
  · refine sendFrame_keeps { h.base with } (h.buffers.txFits hp)
      { h.waiting hi with
        running := by simp
        armedIff := rfl
        within := fun _ => h.control.retries ha
        connecting := by simp [hc]
        closing := by simp [hc]
        transfer := fun _ => hc
        txFits := fun _ => h.buffers.txFits hp
        txWritten := fun _ => h.buffers.txWritten hp }
  · exact .next (h.setRec hi (by simp) (by simp) (by simp) (by simp))
  · exact .next (h.recStep hi (by simp [hp]) hd)

/-! ### The receiver -/

theorem Stored.rxLen {d : List Byte} {s t : State} (h : Stored d s t) :
    t.rxLen = min (s.rxLen + d.length) (s.cfgMaxPayload + 1) := by
  rw [h.eq]

theorem Stored.rxOvf {d : List Byte} {s t : State} (h : Stored d s t) :
    t.rxOvf = (s.rxOvf || decide (s.cfgMaxPayload + 1 < s.rxLen + d.length)) := by
  rw [h.eq]

theorem Stored.rxXor {d : List Byte} {s t : State} (h : Stored d s t) : t.rxXor = s.rxXor ^^^ xorFold d := by
  rw [h.eq]

/-- What RXBUF[0 .. RX_LEN-1] reads as after one more byte was stored. -/
theorem Stored.rxBytes {d : Byte} {s t : State} (h : Stored [d] s t) (hl : s.rxLen ≤ s.cfgMaxPayload)
    (hm : s.cfgMaxPayload ≤ s.bufSize) {p : List Byte} (hp : t.rxBytes t.rxLen = some p) :
    ∃ q, s.rxBytes s.rxLen = some q ∧ p = q ++ [d] := by
  have hlen : t.rxLen = s.rxLen + 1 := by rw [h.rxLen]; simp; omega
  have hdraws : t.draws = s.draws := by rw [h.eq]
  obtain ⟨q, hq, -⟩ := bufReadRun_isSome (s.bufSize + 1) (Config.unwrittenRx s.draws) s.rxBuf s.rxLen 0 (by omega)
  obtain ⟨hpl, hpg⟩ := getElem?_of_bufReadRun _ _ _ _ _ _ hp
  obtain ⟨hql, hqg⟩ := getElem?_of_bufReadRun _ _ _ _ _ _ hq
  refine ⟨q, hq, List.ext_getElem? fun j => ?_⟩
  rcases Nat.lt_trichotomy j s.rxLen with hj | rfl | hj
  · rw [List.getElem?_append_left (by omega), hpg j (by omega), hqg j hj, h.get, if_neg (by omega), hdraws]
  · rw [List.getElem?_append_right (by omega), hpg _ (by omega), h.get, if_pos (by simp; omega)]
    simp [hql]
  · rw [List.getElem?_eq_none (by omega), List.getElem?_eq_none (by simp; omega)]

/-- Every index below RX_LEN holds a value after one more byte was stored. -/
theorem Stored.written {d : Byte} {s t : State} (h : Stored [d] s t) (hw : ∀ i, i < s.rxLen → (memGet s.rxBuf i).isSome) :
    ∀ i, i < t.rxLen → (memGet t.rxBuf i).isSome := by
  intro i hi
  simp only [h.rxLen, List.length_singleton] at hi
  rw [h.get i]
  split_ifs with hc
  · simp only [List.length_singleton] at hc
    simp [show i - s.rxLen = 0 by omega]
  · exact hw i (by simp at hc; omega)

/-- The running fold stays the fold of what is stored (R269). -/
theorem Stored.foldIs {d : Byte} {s t : State} (h : Stored [d] s t) (hm : s.cfgMaxPayload ≤ s.bufSize)
    (hf : s.rxOvf = false → ∀ p, s.rxBytes s.rxLen = some p → s.rxXor = xorFold p) :
    t.rxOvf = false → ∀ p, t.rxBytes t.rxLen = some p → t.rxXor = xorFold p := by
  intro ho p hp
  simp only [h.rxOvf, List.length_singleton, Bool.or_eq_false_iff, decide_eq_false_iff_not] at ho
  obtain ⟨q, hq, rfl⟩ := h.rxBytes (by omega) hm hp
  rw [h.rxXor, xorFold_append, ← hf ho.1 q hq]

/-- Storing a byte in Body keeps the invariant (R254, R258, R269). -/
theorem Stored.inv {d : Byte} {s t : State} (hs : Stored [d] s t) (h : s.Inv) (hb : s.recState = .body) : t.Inv := by
  have hl := h.body.lenBound hb
  have hr : s.resultValid = false := h.control.resultInvalid (by simp [h.control.bodyInRecv hb])
  have hget := hs.written (h.body.written hb)
  have hfold := hs.foldIs h.buffers.maxFits (h.body.foldIs hb)
  have hwf := hs.wf h.buffers.rxWf
  have hbelow := hs.below h.buffers.rxBelow
  revert hget hfold hwf hbelow
  rw [hs.eq]
  intro hget hfold hwf hbelow
  exact
    { control := { h.control with }
      buffers :=
        { h.buffers with
          rxWf := hwf
          rxBelow := hbelow
          resultFits := fun e => by simp [hr] at e
          resultWritten := fun e => by simp [hr] at e }
      body :=
        { h.body with
          lenBound := fun _ => Nat.min_le_right _ _
          ovfFull := fun _ e => by
            have hfull := h.body.ovfFull hb
            simp only [List.length_singleton, Bool.or_eq_true, decide_eq_true_eq] at e ⊢
            rcases e with e | e
            · have := hfull e; omega
            · omega
          written := fun _ => hget
          foldIs := fun _ => hfold } }

theorem storeByte_keeps {s : State} (d : Byte) (h : s.Inv) (hb : s.recState = .body) : Keeps (storeByte d s) := by
  obtain ⟨t, ht, hs⟩ := storeByte_stored d s (h.body.lenBound hb) h.buffers.maxFits
  exact ⟨t, ht, hs.inv h hb⟩

/-- RX_ESC is under no constraint. -/
theorem State.Inv.setEsc {s : State} (h : s.Inv) (e : Bool) : State.Inv { s with rxEsc := e } :=
  ⟨{ h.control with }, { h.buffers with }, { h.body with }⟩

/-- A running operation goes back to scanning. -/
theorem State.Inv.rescan {s : State} (h : s.Inv) (hp : s.phase ≠ .idle) : State.Inv { s with recState := .idle } :=
  (h.waiting hp).inv

/-- RESULT_LEN may be any length that fits and is stored (R42). -/
theorem State.Inv.setResultLen {s : State} (h : s.Inv) {n : Nat} (hn : n ≤ s.cfgMaxPayload)
    (hw : ∀ i, i < n → (memGet s.rxBuf i).isSome) : State.Inv { s with resultLen := n } :=
  ⟨{ h.control with }, { h.buffers with resultFits := fun _ _ => hn, resultWritten := fun _ _ => hw }, { h.body with }⟩

/-- The payload and the BCC2 byte of a body within its bound can be read. -/
theorem rxBytes_rxRead_isSome {s : State} (hl : s.rxLen ≤ s.cfgMaxPayload + 1) (hm : s.cfgMaxPayload ≤ s.bufSize) :
    ∃ p v, s.rxBytes (s.rxLen - 1) = some p ∧ s.rxRead (s.rxLen - 1) = some v := by
  obtain ⟨p, hp, -⟩ :=
    bufReadRun_isSome (s.bufSize + 1) (Config.unwrittenRx s.draws) s.rxBuf (s.rxLen - 1) 0 (by omega)
  exact ⟨p, _, hp, if_pos (by omega)⟩

theorem acceptFrame_inv {s : State} (h : s.Inv) (hb : s.recState = .body) : (acceptFrame s).Inv := by
  have hopen := h.control.transfer (.inr (h.control.bodyInRecv hb))
  refine inv_transmit _ _ _ h.base fun q => ?_
  have hpost := inv_post .ok { s with txq := q, expectedSeq := flipSeq s.expectedSeq, recState := .idle }
    { h.base with } (.inr hopen) rfl
  exact hpost.setResultLen (Nat.sub_le_of_le_add (h.body.lenBound hb))
    fun i hi => h.body.written hb i (Nat.lt_of_lt_of_le hi (Nat.sub_le _ _))

theorem endOfFrame_keeps {s : State} (h : s.Inv) (hb : s.recState = .body) : Keeps (endOfFrame s) := by
  have hi : s.phase ≠ .idle := by simp [h.control.bodyInRecv hb]
  have rescanned : ∀ q, State.Inv { s with txq := q, recState := .idle } := fun q =>
    State.Waiting.inv { h.waiting hi with }
  obtain ⟨p, v, hp, hv⟩ := rxBytes_rxRead_isSome (h.body.lenBound hb) h.buffers.maxFits
  simp only [endOfFrame, hp, hv]
  split_ifs
  · exact .next (h.rescan hi)
  · exact .next (inv_transmit _ _ _ h.base rescanned)
  · exact .next (acceptFrame_inv h hb)
  · exact .next (inv_transmit _ _ _ h.base rescanned)

theorem rxBody_keeps {s : State} (b : Byte) (h : s.Inv) (hb : s.recState = .body) : Keeps (rxBody b s) := by
  have hi : s.phase ≠ .idle := by simp [h.control.bodyInRecv hb]
  unfold rxBody
  split_ifs with hesc hterm hterm hescape
  · exact .next ((h.setEsc false).rescan hi)
  · exact storeByte_keeps _ (h.setEsc false) hb
  · exact endOfFrame_keeps h hb
  · exact .next (h.setEsc true)
  · exact storeByte_keeps _ h hb

/-- Entry to Body (R253): nothing is stored yet. -/
theorem enterBody_inv {s : State} (h : s.Inv) (hp : s.phase = .recv) (hc : s.recState = .ctrlSeen) : (enterBody s).Inv where
  control :=
    { h.control with
      bodyInRecv := fun _ => hp
      neverDone := by simp [enterBody]
      noBccInRecv := by simp [enterBody]
      idleRec := by simp [enterBody, hp]
      ctrlInKey := fun _ => h.control.ctrlInKey (.inl hc) }
  buffers := { h.buffers with }
  body :=
    { lenBound := fun _ => Nat.zero_le _
      ovfFull := by simp [enterBody]
      seqIs := fun _ => rfl
      written := by simp [enterBody]
      foldIs := fun _ _ p hr => by
        obtain rfl : [] = p := Option.some.inj hr
        rfl }

theorem rxRecv_keeps {s : State} (b : Byte) (h : s.Inv) (hp : s.phase = .recv) : Keeps (rxRecv b s) := by
  have hi : s.phase ≠ .idle := by simp [hp]
  have hk : keyInfo = keyOf s.phase s.nextSeq := by simp [keyOf, hp]
  have scan : s.recState ≠ .ctrlSeen → s.recState ≠ .bccSeen → Keeps (.next (recStep keyInfo b s)) := by
    intro hc hbcc
    have hdone := (recNext_facts keyInfo b s.recState s.recCtrl (by simp [hc, hbcc])).2.2.1
    rw [hk] at hdone ⊢
    exact .next (h.recStep hi (fun _ => hc) fun e => hbcc (hdone e).1)
  unfold rxRecv
  cases hr : s.recState with
  | idle | termSeen | addrSeen => exact scan (by simp [hr]) (by simp [hr])
  | ctrlSeen =>
    simp only
    split_ifs
    · exact .next (enterBody_inv h hp hr)
    · exact .next (h.rescan hi)
  | body => exact rxBody_keeps b h hr
  | bccSeen | done => exact .next (h.rescan hi)

/-! ### Rx and runs of Rx -/

/-- In P_IDLE a byte goes back to the front of RXQ (R64). -/
theorem rxByte_of_idle {s : State} (b : Byte) (h : s.phase = .idle) : rxByte b s = .next { s with rxq := b :: s.rxq } := by
  simp [rxByte, h]

theorem rxByte_keeps {s : State} (b : Byte) (h : s.Inv) : Keeps (rxByte b s) := by
  cases hp : s.phase with
  | idle => rw [rxByte_of_idle b hp]; exact .next (h.environment _ _ _ _ _ _)
  | openIWaitUa => simpa only [rxByte, hp] using rxOpenIWaitUa_keeps b h hp
  | openRWaitSet => simpa only [rxByte, hp] using rxOpenRWaitSet_keeps b h hp
  | sendWaitReply => simpa only [rxByte, hp] using rxSendWaitReply_keeps b h hp
  | recv => simpa only [rxByte, hp] using rxRecv_keeps b h hp
  | closeIWaitDisc => simpa only [rxByte, hp] using rxCloseIWaitDisc_keeps b h hp
  | closeRWaitDisc => simpa only [rxByte, hp] using rxCloseRWaitDisc_keeps b h hp
  | closeRWaitUa => simpa only [rxByte, hp] using rxCloseRWaitUa_keeps b h hp

theorem deliver_keeps (l : List Byte) {s : State} (h : s.Inv) : Keeps (deliver l s) := by
  induction l generalizing s with
  | nil => exact .next h
  | cons b r ih =>
    by_cases hp : s.phase = .idle
    · rw [deliver_idle _ _ hp]
      exact .next (h.environment _ _ _ _ _ _)
    · obtain ⟨u, hu, hi⟩ := rxByte_keeps b h
      rw [deliver_cons b r s u hp hu]
      exact ih hi

theorem consume_keeps {s : State} (b : Byte) (h : s.Inv) : Keeps (consume b s) := by
  unfold consume
  split
  · exact rxByte_keeps b h
  · exact rxByte_keeps _ (h.environment _ _ _ _ _ _)

/-! ### Commands -/

theorem badCommand_inv {s : State} (h : s.Inv) (hp : s.phase = .idle) : (badCommand s).Inv :=
  inv_post _ _ { h.base with } (h.control.idleConn hp) (h.control.idleRec hp)

theorem latchConfig_base {s : State} {c : OpenConfig} (h : s.Base) (hc : c.maxPayloadSize ≤ s.bufSize) :
    (latchConfig c s).Base :=
  { h with retry := Nat.zero_le _, maxFits := hc }

theorem runOpen_keeps {s : State} (c : OpenConfig) (h : s.Inv) (hp : s.phase = .idle) : Keeps (runOpen c s) := by
  unfold runOpen
  split_ifs with hok
  · simp only [State.openAllowed, Bool.and_eq_true, decide_eq_true_eq] at hok
    have hb := latchConfig_base h.base hok.2
    have ha : s.timerArmed = false := by rw [h.control.armedIff, hp]; rfl
    split
    · exact .next (inv_transmit _ _ _ hb fun q => State.Waiting.inv
        { hb with
          running := by simp
          recIdle := rfl
          noResult := rfl
          armedIff := rfl
          within := fun _ => Nat.zero_le _
          connecting := by simp [latchConfig]
          closing := by simp [latchConfig]
          transfer := by simp
          txFits := by simp
          txWritten := by simp })
    · exact .next (State.Waiting.inv
        { hb with
          running := by simp [startOpenResponder]
          recIdle := rfl
          noResult := rfl
          armedIff := ha
          within := fun _ => Nat.zero_le _
          connecting := by simp [startOpenResponder, latchConfig]
          closing := by simp [startOpenResponder, latchConfig]
          transfer := by simp [startOpenResponder]
          txFits := by simp [startOpenResponder]
          txWritten := by simp [startOpenResponder] })
  · exact .next (badCommand_inv h hp)

theorem runClose_keeps {s : State} (h : s.Inv) (hp : s.phase = .idle) : Keeps (runClose s) := by
  unfold runClose
  split_ifs with hok
  · have hb : (startClosing s).Base := { h.base with retry := Nat.zero_le _ }
    have ha : s.timerArmed = false := by rw [h.control.armedIff, hp]; rfl
    split
    · exact .next (inv_transmit _ _ _ hb fun q => State.Waiting.inv
        { hb with
          running := by simp
          recIdle := rfl
          noResult := rfl
          armedIff := rfl
          within := fun _ => Nat.zero_le _
          connecting := by simp [startClosing]
          closing := by simp [startClosing]
          transfer := by simp
          txFits := by simp
          txWritten := by simp })
    · exact .next (State.Waiting.inv
        { hb with
          running := by simp [startCloseResponder]
          recIdle := rfl
          noResult := rfl
          armedIff := ha
          within := fun _ => Nat.zero_le _
          connecting := by simp [startCloseResponder, startClosing]
          closing := by simp [startCloseResponder, startClosing]
          transfer := by simp [startCloseResponder]
          txFits := by simp [startCloseResponder]
          txWritten := by simp [startCloseResponder] })
  · exact .next (badCommand_inv h hp)

theorem runReceive_keeps {s : State} (h : s.Inv) (hp : s.phase = .idle) : Keeps (runReceive s) := by
  unfold runReceive
  split_ifs with hok
  · have hc : s.connState = .opened := by simpa [State.isOpen] using hok
    have ha : s.timerArmed = false := by rw [h.control.armedIff, hp]; rfl
    exact .next (State.Waiting.inv
      { h.base with
        retry := Nat.zero_le _
        running := by simp
        recIdle := rfl
        noResult := rfl
        armedIff := ha
        within := fun _ => Nat.zero_le _
        connecting := by simp [hc]
        closing := by simp [hc]
        transfer := fun _ => hc
        txFits := by simp
        txWritten := by simp })
  · exact .next (badCommand_inv h hp)

theorem runSend_keeps {s : State} (data : List Byte) (h : s.Inv) (hp : s.phase = .idle) : Keeps (runSend data s) := by
  unfold runSend
  split_ifs with hok
  · simp only [State.sendAllowed, Bool.and_eq_true, decide_eq_true_eq] at hok
    obtain ⟨hc, hfit⟩ := hok
    have hm := h.buffers.maxFits
    obtain ⟨m, hw, hget, hwf, hbelow⟩ := bufWriteRun_spec s.bufSize data s.txBuf 0 (by omega)
    rw [hw]
    have hb : State.Base { s with resultValid := false, txBuf := m, txLen := data.length, retryCount := 0 } :=
      { h.base with
        retry := Nat.zero_le _
        txWf := hwf h.buffers.txWf
        txBelow := hbelow h.buffers.txBelow }
    have hwritten : ∀ i, i < data.length → (memGet m i).isSome := fun i hi => by
      rw [hget i, if_pos (by omega)]
      simpa using hi
    exact sendFrame_keeps hb hfit
      { hb with
        running := by simp
        recIdle := rfl
        noResult := rfl
        armedIff := rfl
        within := fun _ => Nat.zero_le _
        connecting := by simp [hc]
        closing := by simp [hc]
        transfer := fun _ => hc
        txFits := fun _ => hfit
        txWritten := fun _ => hwritten }
  · exact .next (badCommand_inv h hp)

theorem exec_keeps (i : Instr) {s : State} (h : s.Inv) : Keeps (exec i s) := by
  cases hf : i.isFrame with
  | true => rw [exec_frame i s hf]; exact deliver_keeps _ h
  | false =>
    cases i <;> simp only [Instr.isFrame, reduceCtorEq] at hf
    case openCmd c =>
      simp only [exec, execOpen]
      split_ifs with hp
      · exact runOpen_keeps c h hp
      · exact .next (h.environment _ _ _ _ _ _)
    case sendCmd data =>
      simp only [exec, execSend]
      split_ifs with hp
      · exact runSend_keeps data h hp
      · exact .next (h.environment _ _ _ _ _ _)
    case receiveCmd =>
      simp only [exec, execReceive]
      split_ifs with hp
      · exact runReceive_keeps h hp
      · exact .next (h.environment _ _ _ _ _ _)
    case closeCmd =>
      simp only [exec, execClose]
      split_ifs with hp
      · exact runClose_keeps h hp
      · exact .next (h.environment _ _ _ _ _ _)

/-! ### The timer, channel errors, reset -/

/-- One more expiry is within R33's range. -/
theorem State.Inv.countRetry_base {s : State} (h : s.Inv) (ha : s.timerArmed = true) : (countRetry (disarm s)).Base :=
  { h.base with retry := Nat.succ_le_succ (h.control.retries ha) }

/-- An expiry that the limit allows leaves the operation waiting, armed again. -/
theorem State.Inv.waiting_resent {s : State} (h : s.Inv) (ha : s.timerArmed = true) (hp : s.phase ≠ .idle)
    (hle : ¬ (countRetry (disarm s)).retriesExhausted = true) :
    State.Waiting { arm (countRetry (disarm s)) with recState := .idle } :=
  { h.waiting hp with
    retry := Nat.succ_le_succ (h.control.retries ha)
    armedIff := ha.symm.trans h.control.armedIff
    within := fun _ => by simpa [State.retriesExhausted] using hle }

theorem timeoutOpen_keeps {s : State} (h : s.Inv) (ha : s.timerArmed = true) (hp : s.phase ≠ .idle) :
    Keeps (timeoutOpen (disarm s)) := by
  have hb := h.countRetry_base ha
  unfold timeoutOpen
  split_ifs with hx
  · exact .next (inv_post _ _ { hb with } (.inl rfl) rfl)
  · exact .next (inv_transmit _ _ _ hb fun q => State.Waiting.inv { h.waiting_resent ha hp hx with })

theorem timeoutClose_keeps {s : State} (h : s.Inv) (ha : s.timerArmed = true) (hp : s.phase ≠ .idle) :
    Keeps (timeoutClose (disarm s)) := by
  have hb := h.countRetry_base ha
  unfold timeoutClose
  split_ifs with hx
  · exact .next (inv_post _ _ { hb with } (.inl rfl) rfl)
  · exact .next (inv_transmit _ _ _ hb fun q => State.Waiting.inv { h.waiting_resent ha hp hx with })

theorem timeoutSend_keeps {s : State} (h : s.Inv) (ha : s.timerArmed = true) (hp : s.phase = .sendWaitReply) :
    Keeps (timeoutSend (disarm s)) := by
  have hb := h.countRetry_base ha
  have hc : s.connState = .opened := h.control.transfer (.inl hp)
  unfold timeoutSend
  split_ifs with hx
  · exact .next (inv_post _ _ { hb with } (.inr hc) rfl)
  · refine sendFrame_keeps hb (h.buffers.txFits hp) ?_
    have hw := h.waiting_resent ha (by simp [hp]) hx
    rw [← hp]
    exact { hw with }

theorem Phase.timed_cases {p : Phase} (h : p.timed = true) :
    p = .openIWaitUa ∨ p = .sendWaitReply ∨ p = .closeIWaitDisc := by
  cases p <;> simp [Phase.timed] at h ⊢

/-- The expiry of an armed timer finds the rule of a phase with a timer (R46 (b)). -/
theorem timeoutRule_keeps {s : State} (h : s.Inv) (ha : s.timerArmed = true) : Keeps (timeoutRule (disarm s)) := by
  rcases Phase.timed_cases (h.control.armedIff ▸ ha) with hp | hp | hp <;> simp only [timeoutRule, disarm_phase, hp]
  · exact timeoutOpen_keeps h ha (by simp [hp])
  · exact timeoutSend_keeps h ha hp
  · exact timeoutClose_keeps h ha (by simp [hp])

theorem tick_keeps {s : State} (h : s.Inv) : Keeps (tick s) := by
  unfold tick
  split_ifs with ha
  · exact timeoutRule_keeps h ha
  · exact .next ⟨{ h.control with }, { h.buffers with }, { h.body with }⟩
  · exact .next h

theorem chErr_inv {s : State} (h : s.Inv) : (chErr s).Inv := by
  unfold chErr
  split_ifs
  · exact h
  · exact inv_channelError s h.base

/-- Reset ends in a state of the invariant, whatever the unspecified registers draw (R350). -/
theorem resetEvent_inv {s : State} : (resetEvent s).Inv where
  control := by constructor <;> simp [resetEvent, Phase.timed]
  buffers := by constructor <;> simp [resetEvent, Memory.wf, Memory.below]
  body := body_of_ne (by simp [resetEvent])

/-! ### The step -/

theorem eventRx_keeps {s : State} (h : s.Inv) : Keeps (eventRx s) := by
  unfold eventRx
  split
  · exact .next h
  · split_ifs
    · exact .next h
    · exact consume_keeps _ (h.environment _ _ _ _ _ _)

theorem eventFrame_keeps {s : State} (h : s.Inv) : Keeps (eventFrame s) := by
  unfold eventFrame
  split
  · exact exec_keeps _ (h.environment _ _ _ _ _ _)
  · exact eventRx_keeps h
  · exact eventRx_keeps h

theorem eventCmd_keeps {s : State} (h : s.Inv) : Keeps (eventCmd s) := by
  unfold eventCmd
  split
  · exact .next h
  · split_ifs
    · exact exec_keeps _ (h.environment _ _ _ _ _ _)
    · exact .next h

theorem runEvent_keeps (e : Event) {s : State} (h : s.Inv) : Keeps (runEvent e s) := by
  cases e with
  | reset => exact .next resetEvent_inv
  | cmd => exact eventCmd_keeps h
  | rx => exact eventRx_keeps h
  | frame => exact eventFrame_keeps h
  | tick => exact tick_keeps h
  | chErr => exact .next (chErr_inv h)
  | present _ | line _ | drain _ | writeFate _ => exact .next (h.environment _ _ _ _ _ _)

/-- A step from a state of the invariant answers, with a state of the invariant. -/
theorem step_keeps {s : State} (h : s.Inv) : Keeps (step s) := by
  unfold step
  split
  · exact .next h
  · exact runEvent_keeps _ (h.environment _ _ _ _ _ _)

/-- Settles O46: each rule of the step keeps the invariant. -/
theorem stepKeepsTheInvariant : Obligations.StepKeepsTheInvariant := by
  intro s t h ht
  exact (step_keeps h).inv ht

/-- Settles O47: no rule reads or writes outside a buffer while the invariant holds. -/
theorem stepAlwaysAnswersANextState : Obligations.StepAlwaysAnswersANextState := by
  intro s h
  obtain ⟨t, ht, -⟩ := step_keeps h
  exact ⟨t, ht⟩

end Sys2Proof.Machine
end

section
/-! PROOFS. No rule reads a register outside its window of validity (R45): two states that agree inside the windows take the same
step and agree after it. -/

namespace Sys2Proof.Machine

/-- Both rules answer a next state, and the two next states agree. -/
def Agrees (r r' : Res) : Prop := ∃ s t, r = .next s ∧ r' = .next t ∧ s.Agree t

theorem Agrees.next {s t : State} (h : s.Agree t) : Agrees (.next s) (.next t) := ⟨s, t, rfl, rfl, h⟩

/-- Two rules that branch on conditions of the same value. -/
theorem Agrees.ite {c c' : Prop} [Decidable c] [Decidable c'] {a b a' b' : Res} (hc : c ↔ c') (ha : c → Agrees a a')
    (hb : ¬ c → Agrees b b') : Agrees (if c then a else b) (if c' then a' else b') := by
  by_cases h : c
  · rw [if_pos h, if_pos (hc.1 h)]; exact ha h
  · rw [if_neg h, if_neg (mt hc.2 h)]; exact hb h

/-! ### What the windows give while an operation runs -/

/-- The connection of a running operation is not Closed (R46). -/
theorem State.Inv.connState_ne_closed {s : State} (h : s.Inv) (hp : s.phase ≠ .idle) : s.connState ≠ .closed := by
  intro hc
  have hconn := h.control.connecting
  have hclos := h.control.closing
  have htran := h.control.transfer
  simp only [hc, reduceCtorEq, false_iff, not_or, imp_false] at hconn hclos htran
  cases hs : s.phase <;> simp_all

/-- The configuration is in its window while an operation runs. -/
theorem State.Agree.config_of_running {s t : State} (h : s.Agree t) (hs : s.Inv) (hp : s.phase ≠ .idle) :
    s.config = t.config :=
  h.config (hs.connState_ne_closed hp)

theorem config_eq_iff {s t : State} : s.config = t.config ↔
    s.cfgRole = t.cfgRole ∧ s.cfgChannelId = t.cfgChannelId ∧ s.cfgSpeed = t.cfgSpeed ∧
      s.cfgRetryLimit = t.cfgRetryLimit ∧ s.cfgTimeout = t.cfgTimeout ∧ s.cfgMaxPayload = t.cfgMaxPayload := by
  simp [State.config]

/-- A run of indices that all hold a value reads the same from any buffer that holds the same there, whatever the free values. -/
theorem bufReadRun_congr (cap : Nat) (free free' : Nat → Byte) (m m' : Memory) (n : Nat) :
    ∀ i, (∀ j, j < i + n → memGet m j = memGet m' j ∧ (memGet m j).isSome) →
      bufReadRun cap free m i n = bufReadRun cap free' m' i n := by
  induction n with
  | zero => intro i _; rfl
  | succ n ih =>
    intro i h
    obtain ⟨heq, hsome⟩ := h i (by omega)
    obtain ⟨v, hv⟩ := Option.isSome_iff_exists.1 hsome
    have hread : bufRead cap free m i = bufRead cap free' m' i := by simp [bufRead, ← heq, hv]
    simp only [bufReadRun, hread, ih (i + 1) fun j hj => h j (by omega)]

/-! ### The shared operations -/

section
variable {s t : State} (h : s.Agree t)
include h

theorem State.Agree.disarm : (disarm s).Agree (disarm t) :=
  { h with
    timerArmed := rfl
    timerRemaining := by simp }

theorem State.Agree.arm (hc : s.config = t.config) : (arm s).Agree (arm t) :=
  { h with
    timerArmed := rfl
    timerRemaining := fun _ => (config_eq_iff.1 hc).2.2.2.2.1 }

theorem State.Agree.post (c : Result) : (post c s).Agree (post c t) :=
  { h with
    phase := rfl
    timerArmed := rfl
    resultValid := rfl
    timerRemaining := by simp
    txLen := by simp
    txBuf := by simp
    result := fun _ => ⟨rfl, h.retryCount, rfl⟩
    delivered := by simp }

/-- REC_STATE back to Idle closes the windows of the receive registers. -/
theorem State.Agree.rescan : State.Agree { s with recState := .idle } { t with recState := .idle } :=
  { h with
    recState := rfl
    recCtrl := by simp
    rxRegs := by simp
    rxBuf := by simp }

theorem State.Agree.setPhase {p : Phase} (hp : p ≠ .sendWaitReply) :
    State.Agree { s with phase := p } { t with phase := p } :=
  { h with
    phase := rfl
    txLen := fun e => absurd e hp
    txBuf := fun e => absurd e hp }

theorem State.Agree.setConn {c : ConnState} (hc : c ≠ .closed → s.config = t.config) :
    State.Agree { s with connState := c } { t with connState := c } :=
  { h with
    connState := rfl
    config := hc }

/-- The end of an operation with a new CONN_STATE. -/
theorem State.Agree.ended (r : Result) {c : ConnState} (hc : c ≠ .closed → s.config = t.config) :
    (Machine.post r { s with connState := c, recState := .idle }).Agree
      (Machine.post r { t with connState := c, recState := .idle }) :=
  (h.setConn hc).rescan.post r

theorem State.Agree.channelError : (channelError s).Agree (channelError t) :=
  h.disarm.ended .channelError fun e => absurd rfl e

theorem State.Agree.setTxq (q : List Byte) : State.Agree { s with txq := q } { t with txq := q } :=
  { h with txq := rfl }

theorem State.Agree.setRxq (q : List Byte) : State.Agree { s with rxq := q } { t with rxq := q } :=
  { h with rxq := rfl }

theorem State.Agree.setPort (q : List CmdRecord) : State.Agree { s with port := q } { t with port := q } :=
  { h with port := rfl }

theorem State.Agree.setAgenda (q : List Event) : State.Agree { s with agenda := q } { t with agenda := q } :=
  { h with agenda := rfl }

theorem State.Agree.setChannel (c : Option TestChannel) :
    State.Agree { s with testChannel := c } { t with testChannel := c } :=
  { h with testChannel := rfl }

theorem State.Agree.transmit (l : List Byte) {f : State → State}
    (hf : ∀ q, (f { s with txq := q }).Agree (f { t with txq := q })) : (transmit l f s).Agree (transmit l f t) := by
  cases hw : s.writeFate with
  | none =>
    rw [transmit_none l f s hw, transmit_none l f t (h.writeFate ▸ hw), h.txq]
    exact hf _
  | some n =>
    rw [transmit_some l f s n hw, transmit_some l f t n (h.writeFate ▸ hw), h.txq]
    have hu : State.Agree { s with txq := t.txq ++ l.take n, writeFate := none }
        { t with txq := t.txq ++ l.take n, writeFate := none } := { h with txq := rfl, writeFate := rfl }
    exact hu.channelError

theorem State.Agree.countRetry : (countRetry s).Agree (countRetry t) :=
  { h with retryCount := congrArg (· + 1) h.retryCount }

end

/-- The recognizer reads REC_CTRL only where it holds a value (R32). -/
theorem recNext_congr (K : List Byte) (b : Byte) {st st' : RecState} {x y : Byte} (hst : st = st')
    (h : st = .ctrlSeen ∨ st = .bccSeen → x = y) :
    (recNext K b st x).1 = (recNext K b st' y).1 ∧
      ((recNext K b st x).1 = .ctrlSeen ∨ (recNext K b st x).1 = .bccSeen ∨ (recNext K b st x).1 = .done →
        (recNext K b st x).2 = (recNext K b st' y).2) := by
  subst hst
  cases st with
  | idle | termSeen | addrSeen => simp only [recNext]; split_ifs <;> simp
  | ctrlSeen | bccSeen => obtain rfl := h (by simp); exact ⟨rfl, fun _ => rfl⟩
  | body | done => simp [recNext]

/-- The recognizer never enters Body (R157). -/
theorem recNext_ne_body (K : List Byte) (b : Byte) (st : RecState) (x : Byte) : (recNext K b st x).1 ≠ .body := by
  cases st with
  | idle | termSeen | addrSeen | ctrlSeen | bccSeen => simp only [recNext]; split_ifs <;> simp
  | body | done => simp [recNext]

/-- The control byte of a frame that completes is the same on both sides. -/
theorem State.Agree.recStep_recCtrl {s t : State} (h : s.Agree t) (K : List Byte) (b : Byte)
    (hd : (recStep K b s).recState = .done) : (recStep K b s).recCtrl = (recStep K b t).recCtrl :=
  (recNext_congr K b h.recState fun e => h.recCtrl (e.imp_right .inl)).2 (.inr (.inr hd))

theorem State.Agree.recStep {s t : State} (h : s.Agree t) (K : List Byte) (b : Byte) :
    (recStep K b s).Agree (recStep K b t) := by
  obtain ⟨hst, hctrl⟩ := recNext_congr K b h.recState fun e => h.recCtrl (e.imp_right .inl)
  have hbody := recNext_ne_body K b s.recState s.recCtrl
  exact
    { h with
      recState := hst
      recCtrl := fun e => hctrl (e.imp_right fun e => .inl (e.resolve_right hbody))
      rxRegs := fun e => absurd e hbody
      rxBuf := fun e => absurd e hbody }

/-! ### Bytes in the phases that await a supervisory frame -/

section
variable {s t : State} (b : Byte) (h : s.Agree t)
include h

theorem rxOpenIWaitUa_agrees (hc : s.config = t.config) : Agrees (rxOpenIWaitUa b s) (rxOpenIWaitUa b t) := by
  have hu := h.recStep keyUa b
  exact .ite (by rw [hu.recState]) (fun _ => .next (hu.disarm.ended .ok fun _ => hc)) fun _ => .next hu

theorem rxOpenRWaitSet_agrees (hc : s.config = t.config) : Agrees (rxOpenRWaitSet b s) (rxOpenRWaitSet b t) := by
  have hu := h.recStep keySet b
  exact .ite (by rw [hu.recState])
    (fun _ => .next (hu.transmit _ fun q => (hu.setTxq q).ended .ok fun _ => hc)) fun _ => .next hu

theorem rxCloseIWaitDisc_agrees : Agrees (rxCloseIWaitDisc b s) (rxCloseIWaitDisc b t) := by
  have hu := h.recStep keyDisc b
  exact .ite (by rw [hu.recState])
    (fun _ => .next (hu.disarm.transmit _ fun q => (hu.disarm.setTxq q).ended .ok fun e => absurd rfl e)) fun _ => .next hu

theorem rxCloseRWaitDisc_agrees : Agrees (rxCloseRWaitDisc b s) (rxCloseRWaitDisc b t) := by
  have hu := h.recStep keyDisc b
  exact .ite (by rw [hu.recState])
    (fun _ => .next (hu.transmit _ fun q => (hu.setTxq q).rescan.setPhase (by simp))) fun _ => .next hu

theorem rxCloseRWaitUa_agrees : Agrees (rxCloseRWaitUa b s) (rxCloseRWaitUa b t) := by
  have hu := h.recStep keyUa b
  exact .ite (by rw [hu.recState]) (fun _ => .next (hu.ended .ok fun e => absurd rfl e)) fun _ => .next hu

/-! ### The sender -/

omit b in
/-- The frame in flight is the same where TX_LEN and the bytes of TXBUF below it are, all of them written. -/
theorem sendFrame_agrees (hc : s.config = t.config) (hm : s.txLen ≤ s.bufSize) (hl : s.txLen = t.txLen)
    (hb : ∀ i, i < s.txLen → memGet s.txBuf i = memGet t.txBuf i ∧ (memGet s.txBuf i).isSome) :
    Agrees (sendFrame s) (sendFrame t) := by
  obtain ⟨p, hp, -⟩ := bufReadRun_isSome s.bufSize (Config.unwrittenTx s.draws) s.txBuf s.txLen 0 (by omega)
  have hs : s.txPayload = some p := hp
  have ht : t.txPayload = some p := by
    rw [← hp, State.txPayload, ← hl, ← h.bufSize]
    exact (bufReadRun_congr _ _ _ _ _ _ 0 fun j hj => hb j (by omega)).symm
  simp only [sendFrame, hs, ht, inFlight, ← h.nextSeq]
  exact .next (h.transmit _ fun q =>
    { ((h.setTxq q).arm hc).rescan with
      phase := rfl
      txLen := fun _ => hl
      txBuf := fun _ i hi => (hb i hi).1 })

theorem rxSendWaitReply_agrees (hs : s.Inv) (hp : s.phase = .sendWaitReply) :
    Agrees (rxSendWaitReply b s) (rxSendWaitReply b t) := by
  have hc := h.config_of_running hs (by simp [hp])
  have hu := h.recStep (keyReply s.nextSeq) b
  unfold rxSendWaitReply
  rw [← h.nextSeq]
  refine .ite (by rw [hu.recState]) (fun hd => ?_) fun _ => .next hu
  have hctrl := h.recStep_recCtrl _ _ hd
  refine .ite (by rw [hctrl]) (fun _ => .next (State.Agree.post ?_ .ok))
    fun _ => .ite (by rw [hctrl]) (fun _ => ?_) fun _ => ?_
  · exact { hu.disarm.rescan with nextSeq := congrArg flipSeq h.nextSeq }
  · exact sendFrame_agrees hu.disarm hc (Nat.le_trans (hs.buffers.txFits hp) hs.buffers.maxFits) (h.txLen hp)
      fun i hi => ⟨h.txBuf hp i hi, hs.buffers.txWritten hp i hi⟩
  · exact .next hu.rescan

end

/-! ### The receiver -/

section
variable {s t : State} (h : s.Agree t) (hs : s.Inv)
include h hs

theorem storeByte_agrees (d : Byte) (hr : s.recState = .body) (ht : t.Inv) : Agrees (storeByte d s) (storeByte d t) := by
  have hp : s.phase ≠ .idle := by simp [hs.control.bodyInRecv hr]
  obtain ⟨hlen, hseq, hxor⟩ := h.rxRegs hr
  have hmax : s.cfgMaxPayload = t.cfgMaxPayload := (config_eq_iff.1 (h.config_of_running hs hp)).2.2.2.2.2
  obtain ⟨u, hu, su⟩ := storeByte_stored d s (hs.body.lenBound hr) hs.buffers.maxFits
  obtain ⟨v, hv, sv⟩ := storeByte_stored d t (ht.body.lenBound (h.recState ▸ hr)) ht.buffers.maxFits
  refine ⟨u, v, hu, hv, ?_⟩
  have hbuf : ∀ i, i < u.rxLen → memGet u.rxBuf i = memGet v.rxBuf i := by
    intro i hi
    rw [su.get, sv.get, ← hlen, ← hmax]
    split_ifs with hc
    · rfl
    · rw [su.rxLen] at hi
      exact h.rxBuf hr i (by omega)
  rw [su.rxLen] at hbuf
  rw [su.eq, sv.eq]
  exact
    { h with
      rxOvf := by rw [h.rxOvf, hlen, hmax]
      rxRegs := fun _ => ⟨by rw [hlen, hmax], hseq, by rw [hxor]⟩
      rxBuf := fun _ => hbuf
      delivered := fun e => by simp [hs.control.resultInvalid hp] at e }

/-- The body so far reads the same on both sides. -/
theorem State.Agree.rxBytes_eq (hr : s.recState = .body) {n : Nat} (hn : n ≤ s.rxLen) : s.rxBytes n = t.rxBytes n := by
  rw [State.rxBytes, State.rxBytes, ← h.bufSize]
  exact bufReadRun_congr _ _ _ _ _ _ 0 fun j hj =>
    ⟨h.rxBuf hr j (by omega), hs.body.written hr j (by omega)⟩

theorem State.Agree.rxRead_eq (hr : s.recState = .body) {i : Nat} (hi : i < s.rxLen) : s.rxRead i = t.rxRead i := by
  obtain ⟨v, hv⟩ := Option.isSome_iff_exists.1 (hs.body.written hr i hi)
  simp [State.rxRead, bufRead, ← h.bufSize, ← h.rxBuf hr i hi, hv]

omit hs in
theorem ackDuplicate_agree (hr : s.recState = .body) : (ackDuplicate s).Agree (ackDuplicate t) := by
  obtain ⟨-, hseq, -⟩ := h.rxRegs hr
  unfold ackDuplicate
  rw [show rrBytes t.rxSeq = rrBytes s.rxSeq by rw [hseq]]
  exact h.transmit _ fun q => (h.setTxq q).rescan

omit hs in
theorem rejectFrame_agree : (rejectFrame s).Agree (rejectFrame t) := by
  unfold rejectFrame
  rw [show rejBytes t.expectedSeq = rejBytes s.expectedSeq by rw [h.expectedSeq]]
  exact h.transmit _ fun q => (h.setTxq q).rescan

omit hs in
theorem acceptFrame_agree (hr : s.recState = .body) : (acceptFrame s).Agree (acceptFrame t) := by
  obtain ⟨hlen, -, -⟩ := h.rxRegs hr
  simp only [acceptFrame, ← h.expectedSeq]
  refine h.transmit _ fun q => ?_
  have hu : State.Agree { s with txq := q, expectedSeq := flipSeq s.expectedSeq, recState := .idle }
      { t with txq := q, expectedSeq := flipSeq t.expectedSeq, recState := .idle } :=
    { (h.setTxq q).rescan with expectedSeq := congrArg flipSeq h.expectedSeq }
  exact
    { hu.post .ok with
      result := fun _ => ⟨rfl, h.retryCount, congrArg (· - 1) hlen⟩
      delivered := fun _ _ i hi => h.rxBuf hr i (Nat.lt_of_lt_of_le hi (Nat.sub_le _ _)) }

theorem endOfFrame_agrees (hr : s.recState = .body) : Agrees (endOfFrame s) (endOfFrame t) := by
  obtain ⟨hlen, hseq, -⟩ := h.rxRegs hr
  have hmal : s.bodyMalformed = t.bodyMalformed := by simp [State.bodyMalformed, h.rxOvf, hlen]
  have hdup : s.isDuplicate = t.isDuplicate := by simp [State.isDuplicate, h.expectedSeq, hseq]
  refine .ite (by rw [hmal]) (fun _ => .next h.rescan) fun hm => ?_
  have hpos : 0 < s.rxLen := by simp [State.bodyMalformed] at hm; omega
  obtain ⟨p, v, hp, hv⟩ := rxBytes_rxRead_isSome (hs.body.lenBound hr) hs.buffers.maxFits
  have hp' := (h.rxBytes_eq hs hr (Nat.sub_le s.rxLen 1)).symm.trans hp
  have hv' := (h.rxRead_eq hs hr (Nat.sub_lt hpos Nat.one_pos)).symm.trans hv
  rw [hlen] at hp' hv'
  simp only [hp, hv, hp', hv']
  exact .ite Iff.rfl
    (fun _ => .ite (by rw [hdup]) (fun _ => .next (ackDuplicate_agree h hr)) fun _ => .next (acceptFrame_agree h hr))
    fun _ => .next (rejectFrame_agree h)

theorem rxBody_agrees (b : Byte) (hr : s.recState = .body) (ht : t.Inv) : Agrees (rxBody b s) (rxBody b t) := by
  have hesc : ∀ e, State.Agree { s with rxEsc := e } { t with rxEsc := e } := fun e => { h with rxEsc := rfl }
  refine .ite (by rw [h.rxEsc]) (fun _ => ?_) fun _ => ?_
  · exact .ite Iff.rfl (fun _ => .next (hesc false).rescan)
      fun _ => storeByte_agrees (hesc false) (hs.setEsc false) _ hr (ht.setEsc false)
  · exact .ite Iff.rfl (fun _ => endOfFrame_agrees h hs hr)
      fun _ => .ite Iff.rfl (fun _ => .next (hesc true)) fun _ => storeByte_agrees h hs _ hr ht

omit hs in
theorem enterBody_agree (hr : s.recState = .ctrlSeen) : (enterBody s).Agree (enterBody t) :=
  { h with
    recState := rfl
    rxEsc := rfl
    rxOvf := rfl
    recCtrl := fun _ => h.recCtrl (.inl hr)
    rxRegs := fun _ => ⟨rfl, congrArg seqOf (h.recCtrl (.inl hr)), rfl⟩
    rxBuf := by simp [enterBody] }

theorem rxRecv_agrees (b : Byte) (ht : t.Inv) : Agrees (rxRecv b s) (rxRecv b t) := by
  cases hr : s.recState with
  | idle | termSeen | addrSeen =>
    simp only [rxRecv, hr, h.recState ▸ hr]
    exact .next (h.recStep keyInfo b)
  | ctrlSeen =>
    simp only [rxRecv, hr, h.recState ▸ hr]
    exact .ite (by rw [h.recCtrl (.inl hr)]) (fun _ => .next (enterBody_agree h hr)) fun _ => .next h.rescan
  | body =>
    simp only [rxRecv, hr, h.recState ▸ hr]
    exact rxBody_agrees h hs b hr ht
  | bccSeen | done =>
    simp only [rxRecv, hr, h.recState ▸ hr]
    exact .next h.rescan

/-! ### Rx and runs of Rx -/

theorem rxByte_agrees (b : Byte) (ht : t.Inv) : Agrees (rxByte b s) (rxByte b t) := by
  cases hp : s.phase with
  | idle =>
    rw [rxByte_of_idle b hp, rxByte_of_idle b (h.phase ▸ hp)]
    exact .next { h with rxq := congrArg (b :: ·) h.rxq }
  | openIWaitUa =>
    simpa only [rxByte, ← h.phase, hp] using rxOpenIWaitUa_agrees b h (h.config_of_running hs (by simp [hp]))
  | openRWaitSet =>
    simpa only [rxByte, ← h.phase, hp] using rxOpenRWaitSet_agrees b h (h.config_of_running hs (by simp [hp]))
  | sendWaitReply => simpa only [rxByte, ← h.phase, hp] using rxSendWaitReply_agrees b h hs hp
  | recv => simpa only [rxByte, ← h.phase, hp] using rxRecv_agrees h hs b ht
  | closeIWaitDisc => simpa only [rxByte, ← h.phase, hp] using rxCloseIWaitDisc_agrees b h
  | closeRWaitDisc => simpa only [rxByte, ← h.phase, hp] using rxCloseRWaitDisc_agrees b h
  | closeRWaitUa => simpa only [rxByte, ← h.phase, hp] using rxCloseRWaitUa_agrees b h

end

theorem deliver_agrees (l : List Byte) {s t : State} (h : s.Agree t) (hs : s.Inv) (ht : t.Inv) :
    Agrees (deliver l s) (deliver l t) := by
  induction l generalizing s t with
  | nil => exact .next h
  | cons b r ih =>
    by_cases hp : s.phase = .idle
    · rw [deliver_idle _ _ hp, deliver_idle _ _ (h.phase ▸ hp)]
      exact .next { h with rxq := congrArg (b :: r ++ ·) h.rxq }
    · obtain ⟨u, v, hu, hv, huv⟩ := rxByte_agrees h hs b ht
      rw [deliver_cons b r s u hp hu, deliver_cons b r t v (h.phase ▸ hp) hv]
      exact ih huv ((rxByte_keeps b hs).inv hu) ((rxByte_keeps b ht).inv hv)

/-! ### The frame event -/

theorem eventFrame_of_fetch {s : State} {p : Instr × List Byte} (hc : s.testChannel = none)
    (hf : fetchFrame s.rxq = some p) : eventFrame s = exec p.1 { s with rxq := p.2 } := by
  simp [eventFrame, hc, hf]

theorem eventFrame_of_not_fetch {s : State} (h : s.testChannel ≠ none ∨ fetchFrame s.rxq = none) :
    eventFrame s = eventRx s := by
  unfold eventFrame
  split
  · simp_all
  · rfl
  · rfl

/-! ### Commands -/

section
variable {s t : State} (h : s.Agree t)
include h

theorem badCommand_agree : (badCommand s).Agree (badCommand t) := by
  have hu : State.Agree { s with resultValid := false } { t with resultValid := false } :=
    { h with
      resultValid := rfl
      result := by simp
      delivered := by simp }
  exact hu.post .badCommand

/-- An accepted OPEN writes the whole configuration (R180). -/
theorem latchConfig_agree (c : OpenConfig) : (latchConfig c s).Agree (latchConfig c t) :=
  { h.rescan with
    connState := rfl
    nextSeq := rfl
    expectedSeq := rfl
    retryCount := rfl
    resultValid := rfl
    config := fun _ => rfl
    result := by simp [latchConfig]
    delivered := by simp [latchConfig] }

theorem runOpen_agrees (c : OpenConfig) : Agrees (runOpen c s) (runOpen c t) := by
  have hok : s.openAllowed c = t.openAllowed c := by simp [State.openAllowed, h.connState, h.bufSize]
  have hu := latchConfig_agree h c
  refine .ite (by rw [hok]) (fun _ => ?_) fun _ => .next (badCommand_agree h)
  split
  · exact .next (hu.transmit _ fun q => ((hu.setTxq q).arm rfl).setPhase (by simp))
  · exact .next (hu.setPhase (by simp))

theorem startClosing_agree (hc : s.config = t.config) : (startClosing s).Agree (startClosing t) :=
  { h.rescan with
    connState := rfl
    retryCount := rfl
    resultValid := rfl
    config := fun _ => hc
    result := by simp [startClosing]
    delivered := by simp [startClosing] }

theorem runClose_agrees : Agrees (runClose s) (runClose t) := by
  refine .ite (by rw [State.isOpen, State.isOpen, h.connState]) (fun ho => ?_) fun _ => .next (badCommand_agree h)
  have hc : s.config = t.config := h.config (by simp_all [State.isOpen])
  have hu := startClosing_agree h hc
  cases hr : s.cfgRole with
  | initiator =>
    simp only [(config_eq_iff.1 hc).1 ▸ hr]
    exact .next (hu.transmit _ fun q => ((hu.setTxq q).arm hc).setPhase (by simp))
  | responder =>
    simp only [(config_eq_iff.1 hc).1 ▸ hr]
    exact .next (hu.setPhase (by simp))

theorem runReceive_agrees : Agrees (runReceive s) (runReceive t) :=
  .ite (by rw [State.isOpen, State.isOpen, h.connState])
    (fun _ => .next
      { h.rescan.setPhase (p := .recv) (by simp) with
        retryCount := rfl
        resultValid := rfl
        result := by simp
        delivered := by simp })
    fun _ => .next (badCommand_agree h)

/-- The copy of the payload that an accepted SEND makes (R220) holds the same bytes on both sides. -/
theorem startSend_agree {data : List Byte} {m n : Memory} (hmn : ∀ i, i < data.length → memGet m i = memGet n i) :
    State.Agree { s with resultValid := false, txBuf := m, txLen := data.length, retryCount := 0 }
      { t with resultValid := false, txBuf := n, txLen := data.length, retryCount := 0 } :=
  { h with
    retryCount := rfl
    resultValid := rfl
    txLen := fun _ => rfl
    txBuf := fun _ => hmn
    result := by simp
    delivered := by simp }

theorem runSend_agrees (data : List Byte) (hm : s.cfgMaxPayload ≤ s.bufSize) : Agrees (runSend data s) (runSend data t) := by
  have hok : s.sendAllowed data = t.sendAllowed data := by
    by_cases ho : s.connState = .opened
    · simp [State.sendAllowed, h.connState, (config_eq_iff.1 (h.config (by simp [ho]))).2.2.2.2.2]
    · simp [State.sendAllowed, ho, ← h.connState]
  refine .ite (by rw [hok]) (fun hfit => ?_) fun _ => .next (badCommand_agree h)
  simp only [State.sendAllowed, Bool.and_eq_true, decide_eq_true_eq] at hfit
  obtain ⟨ho, hlen⟩ := hfit
  have hd := Nat.le_trans hlen hm
  obtain ⟨m, hw, hget, -, -⟩ := bufWriteRun_spec s.bufSize data s.txBuf 0 (by omega)
  obtain ⟨n, hw', hget', -, -⟩ := bufWriteRun_spec s.bufSize data t.txBuf 0 (by omega)
  rw [h.bufSize] at hw'
  have hm' : ∀ i, i < data.length → memGet m i = data[i]? := fun i hi => by rw [hget, if_pos (by omega), Nat.sub_zero]
  have hn' : ∀ i, i < data.length → memGet n i = data[i]? := fun i hi => by rw [hget', if_pos (by omega), Nat.sub_zero]
  have hmn : ∀ i, i < data.length → memGet m i = memGet n i := fun i hi => (hm' i hi).trans (hn' i hi).symm
  simp only [hw, hw']
  exact sendFrame_agrees (startSend_agree h hmn) (h.config (by simp [ho])) hd rfl
    fun i hi => ⟨hmn i hi, by simpa [hm' i hi] using hi⟩

/-- A command outside P_IDLE waits at the port on both sides (R68). -/
theorem putBack_agree (r : CmdRecord) : State.Agree { s with port := r :: s.port } { t with port := r :: t.port } :=
  { h with port := congrArg (r :: ·) h.port }

theorem exec_agrees (i : Instr) (hs : s.Inv) (ht : t.Inv) : Agrees (exec i s) (exec i t) := by
  cases hf : i.isFrame with
  | true => rw [exec_frame i s hf, exec_frame i t hf]; exact deliver_agrees _ h hs ht
  | false =>
    cases i <;> simp only [Instr.isFrame, reduceCtorEq] at hf
    case openCmd c => exact .ite (by rw [h.phase]) (fun _ => runOpen_agrees h c) fun _ => .next (putBack_agree h _)
    case sendCmd data =>
      exact .ite (by rw [h.phase]) (fun _ => runSend_agrees h data hs.buffers.maxFits) fun _ => .next (putBack_agree h _)
    case receiveCmd => exact .ite (by rw [h.phase]) (fun _ => runReceive_agrees h) fun _ => .next (putBack_agree h _)
    case closeCmd => exact .ite (by rw [h.phase]) (fun _ => runClose_agrees h) fun _ => .next (putBack_agree h _)

/-! ### The timer, channel errors, reset -/

theorem retriesExhausted_congr (hc : s.config = t.config) : s.retriesExhausted = t.retriesExhausted := by
  simp [State.retriesExhausted, h.retryCount, (config_eq_iff.1 hc).2.2.2.1]

theorem timeoutOpen_agrees (hc : s.config = t.config) : Agrees (timeoutOpen s) (timeoutOpen t) := by
  have hu := h.countRetry
  exact .ite (by rw [retriesExhausted_congr hu hc]) (fun _ => .next (hu.ended .connectFailed fun e => absurd rfl e))
    fun _ => .next (hu.transmit _ fun q => ((hu.setTxq q).arm hc).rescan)

theorem timeoutClose_agrees (hc : s.config = t.config) : Agrees (timeoutClose s) (timeoutClose t) := by
  have hu := h.countRetry
  exact .ite (by rw [retriesExhausted_congr hu hc]) (fun _ => .next (hu.ended .connectFailed fun e => absurd rfl e))
    fun _ => .next (hu.transmit _ fun q => ((hu.setTxq q).arm hc).rescan)

theorem timeoutSend_agrees (hc : s.config = t.config) (hp : s.phase = .sendWaitReply) (hm : s.txLen ≤ s.bufSize)
    (hw : ∀ i, i < s.txLen → (memGet s.txBuf i).isSome) : Agrees (timeoutSend s) (timeoutSend t) := by
  have hu := h.countRetry
  exact .ite (by rw [retriesExhausted_congr hu hc]) (fun _ => .next (hu.rescan.post .maxRetriesExceeded))
    fun _ => sendFrame_agrees hu hc hm (h.txLen hp) fun i hi => ⟨h.txBuf hp i hi, hw i hi⟩

theorem timeoutRule_agrees (hs : s.Inv) (ha : s.timerArmed = true) :
    Agrees (timeoutRule (disarm s)) (timeoutRule (disarm t)) := by
  have htimed := Phase.timed_cases (hs.control.armedIff ▸ ha)
  have hc := h.config_of_running hs (by rcases htimed with hp | hp | hp <;> simp [hp])
  rcases htimed with hp | hp | hp <;> simp only [timeoutRule, disarm_phase, ← h.phase, hp]
  · exact timeoutOpen_agrees h.disarm hc
  · exact timeoutSend_agrees h.disarm hc hp (Nat.le_trans (hs.buffers.txFits hp) hs.buffers.maxFits)
      (hs.buffers.txWritten hp)
  · exact timeoutClose_agrees h.disarm hc

theorem tick_agrees (hs : s.Inv) : Agrees (tick s) (tick t) := by
  refine .ite (by rw [h.timerArmed]) (fun ha => ?_) fun _ => .next h
  have hr := h.timerRemaining ha
  exact .ite (by rw [State.timerExpires, State.timerExpires, hr]) (fun _ => timeoutRule_agrees h hs ha)
    fun _ => .next { h with timerRemaining := fun _ => congrArg (· - 1) hr }

theorem chErr_agree : (chErr s).Agree (chErr t) := by
  by_cases hp : s.phase = .idle
  · rw [chErr, chErr, if_pos hp, if_pos (h.phase ▸ hp)]; exact h
  · rw [chErr, chErr, if_neg hp, if_neg (h.phase ▸ hp)]; exact h.channelError

/-- After a Reset only the specified registers are in their windows (R45, R350). -/
theorem resetEvent_agree : (resetEvent s).Agree (resetEvent t) :=
  { h with
    connState := rfl
    phase := rfl
    recState := rfl
    nextSeq := rfl
    expectedSeq := rfl
    retryCount := rfl
    timerArmed := rfl
    rxEsc := rfl
    rxOvf := rfl
    resultValid := rfl
    config := fun e => absurd rfl e
    recCtrl := by simp [resetEvent]
    timerRemaining := by simp [resetEvent]
    rxRegs := by simp [resetEvent]
    rxBuf := by simp [resetEvent]
    txLen := by simp [resetEvent]
    txBuf := by simp [resetEvent]
    result := by simp [resetEvent]
    delivered := by simp [resetEvent] }

/-! ### The step -/

variable (hs : s.Inv) (ht : t.Inv)
include hs ht

theorem consume_agrees (b : Byte) : Agrees (consume b s) (consume b t) := by
  have hpass : ∀ c, passByte c t.recState b = passByte c s.recState b := fun c => by rw [h.recState]
  unfold consume
  rw [← h.testChannel]
  split
  · exact rxByte_agrees h hs b ht
  · simp only [hpass]
    exact rxByte_agrees (h.setChannel _) (hs.environment _ _ _ _ _ _) _ (ht.environment _ _ _ _ _ _)

theorem eventRx_agrees : Agrees (eventRx s) (eventRx t) := by
  unfold eventRx
  rw [← h.rxq]
  split
  · exact .next h
  · exact .ite (by rw [h.phase]) (fun _ => .next h)
      fun _ => consume_agrees (h.setRxq _) (hs.environment _ _ _ _ _ _) (ht.environment _ _ _ _ _ _) _

theorem eventFrame_agrees : Agrees (eventFrame s) (eventFrame t) := by
  by_cases hc : s.testChannel = none
  · cases hf : fetchFrame s.rxq with
    | none =>
      rw [eventFrame_of_not_fetch (.inr hf), eventFrame_of_not_fetch (.inr (h.rxq ▸ hf))]
      exact eventRx_agrees h hs ht
    | some p =>
      rw [eventFrame_of_fetch hc hf, eventFrame_of_fetch (h.testChannel ▸ hc) (h.rxq ▸ hf)]
      exact exec_agrees (h.setRxq _) _ (hs.environment _ _ _ _ _ _) (ht.environment _ _ _ _ _ _)
  · rw [eventFrame_of_not_fetch (.inl hc), eventFrame_of_not_fetch (.inl (h.testChannel ▸ hc))]
    exact eventRx_agrees h hs ht

theorem eventCmd_agrees : Agrees (eventCmd s) (eventCmd t) := by
  unfold eventCmd
  rw [← h.port]
  split
  · exact .next h
  · exact .ite (by rw [h.phase])
      (fun _ => exec_agrees (h.setPort _) _ (hs.environment _ _ _ _ _ _) (ht.environment _ _ _ _ _ _))
      fun _ => .next h

theorem runEvent_agrees (e : Event) : Agrees (runEvent e s) (runEvent e t) := by
  cases e with
  | reset => exact .next (resetEvent_agree h)
  | cmd => exact eventCmd_agrees h hs ht
  | rx => exact eventRx_agrees h hs ht
  | frame => exact eventFrame_agrees h hs ht
  | tick => exact tick_agrees h hs
  | chErr => exact .next (chErr_agree h)
  | present r => exact .next { h with port := congrArg (· ++ [r]) h.port }
  | line q => exact .next (h.setRxq q)
  | drain n => exact .next { h with txq := congrArg (List.drop n) h.txq }
  | writeFate f => exact .next { h with writeFate := rfl }

theorem step_agrees : Agrees (step s) (step t) := by
  unfold step
  rw [← h.agenda]
  split
  · exact .next h
  · exact runEvent_agrees (h.setAgenda _) (hs.environment _ _ _ _ _ _) (ht.environment _ _ _ _ _ _) _

end

/-- Settles O48: each rule of the step takes states that agree to states that agree. -/
theorem unspecifiedRegistersAreNeverRead : Obligations.UnspecifiedRegistersAreNeverRead := by
  intro s t s' hs ht h hstep
  obtain ⟨u, t', hu, ht', hagree⟩ := step_agrees h hs ht
  obtain rfl : u = s' := Host.Outcome.next.inj (hu.symm.trans hstep)
  exact ⟨t', ht', hagree⟩

end Sys2Proof.Machine
end

section
/-! PROOFS. What each rule leaves unchanged: the frame of a received byte, of a frame, of a command and of a step (R25, R27, R28, R40,
R41), and with it what changes the configuration and the sequence bits. -/

namespace Sys2Proof.Machine

/-! ### Predicates on the next state a rule may answer -/

/-- Every next state the rule answers satisfies P. -/
def Leads (P : State → Prop) (r : Res) : Prop := ∀ t, r = .next t → P t

theorem Leads.next {P : State → Prop} {t : State} (h : P t) : Leads P (.next t) := by
  intro u hu
  obtain rfl : t = u := Host.Outcome.next.inj hu
  exact h

theorem Leads.fault {P : State → Prop} {f : Fault} : Leads P (.fault f) := fun _ h => by simp at h

theorem Leads.imp {P Q : State → Prop} {r : Res} (h : Leads P r) (hpq : ∀ t, P t → Q t) : Leads Q r :=
  fun t ht => hpq t (h t ht)

/-- What holds of both outcomes of Tx holds after it. -/
theorem transmit_ind {P : State → Prop} {l : List Byte} {f : State → State} {s : State}
    (hf : ∀ q, P (f { s with txq := q })) (he : ∀ q, P (channelError { s with txq := q, writeFate := none })) :
    P (transmit l f s) := by
  rcases transmit_cases l f s with e | ⟨n, -, e⟩ <;> rw [e]
  · exact hf _
  · exact he _

theorem sendFrame_leads {P : State → Prop} {s : State}
    (hf : ∀ q, P { arm { s with txq := q } with recState := .idle, phase := .sendWaitReply })
    (he : ∀ q, P (channelError { s with txq := q, writeFate := none })) : Leads P (sendFrame s) := by
  unfold sendFrame
  split
  · exact .next (transmit_ind hf he)
  · exact .fault

/-! ### The configuration and the sequence bits -/

/-- The operation ended with a valid Ok. -/
def State.EndedOk (s : State) : Prop := s.phase = .idle ∧ s.result = .ok ∧ s.resultValid = true

/-- The registers an accepted OPEN sets (R25, R27, R28). -/
def State.linkRegs (s : State) : OpenConfig × SeqBit × SeqBit := (s.config, s.nextSeq, s.expectedSeq)

/-- How a rule other than OPEN and Reset treats these registers: the configuration stays, and a sequence bit is flipped only by the
end with Ok of a SEND or of a RECEIVE (R224, R262). -/
structure LinkEffect (s t : State) : Prop where
  config : t.config = s.config
  nextSeq : t.nextSeq = s.nextSeq ∨ s.phase = .sendWaitReply ∧ t.EndedOk ∧ t.nextSeq = 1 - s.nextSeq
  expectedSeq : t.expectedSeq = s.expectedSeq ∨ s.phase = .recv ∧ t.EndedOk ∧ t.expectedSeq = 1 - s.expectedSeq

theorem LinkEffect.of_linkRegs_eq {s t : State} (h : t.linkRegs = s.linkRegs) : LinkEffect s t := by
  simp only [State.linkRegs, Prod.mk.injEq] at h
  obtain ⟨hc, hn, he⟩ := h
  exact ⟨hc, .inl hn, .inl he⟩

/-! ### A received byte -/

/-- What no received byte changes. -/
def State.unreceived (s : State) :
    OpenConfig × Nat × Memory × List CmdRecord × List Event × Option TestChannel × Nat × Nat × Nat :=
  (s.config, s.txLen, s.txBuf, s.port, s.agenda, s.testChannel, s.bufSize, s.draws, s.retryCount)

/-- What received bytes can do to the state beside the registers of the recognizer, the body, the timer and the result. -/
structure ByteEffect (s t : State) : Prop extends LinkEffect s t where
  kept : t.unreceived = s.unreceived
  fate : t.writeFate = s.writeFate ∨ t.writeFate = none
  phase : t.phase = s.phase ∨ t.phase = .idle ∨ s.phase = .closeRWaitDisc ∧ t.phase = .closeRWaitUa
  rxBuf : s.phase = .recv ∨ t.rxBuf = s.rxBuf

/-- The registers that most rules for a byte leave alone. -/
def State.stable (s : State) := (s.linkRegs, s.unreceived, s.writeFate, s.rxBuf)

theorem ByteEffect.of_stable {s t : State} (h : t.stable = s.stable)
    (hp : t.phase = s.phase ∨ t.phase = .idle ∨ s.phase = .closeRWaitDisc ∧ t.phase = .closeRWaitUa) :
    ByteEffect s t := by
  simp only [State.stable, Prod.mk.injEq] at h
  obtain ⟨hl, hk, hf, hb⟩ := h
  exact { LinkEffect.of_linkRegs_eq hl with kept := hk, fate := .inl hf, phase := hp, rxBuf := .inr hb }

/-- The operation goes on waiting. -/
theorem ByteEffect.waits {s t : State} (h : t.stable = s.stable) (hp : t.phase = s.phase) : ByteEffect s t :=
  .of_stable h (.inl hp)

/-- The operation ends. -/
theorem ByteEffect.ends {s t : State} (h : t.stable = s.stable) (hp : t.phase = .idle) : ByteEffect s t :=
  .of_stable h (.inr (.inl hp))

/-- Two runs of bytes, when the first leaves the block waiting: a sequence bit has not changed yet. -/
theorem ByteEffect.trans {s t u : State} (h1 : ByteEffect s t) (h2 : ByteEffect t u) (ht : t.phase ≠ .idle) :
    ByteEffect s u := by
  have hn : t.nextSeq = s.nextSeq := h1.nextSeq.resolve_right fun e => ht e.2.1.1
  have he : t.expectedSeq = s.expectedSeq := h1.expectedSeq.resolve_right fun e => ht e.2.1.1
  have hp := h1.phase.imp_right fun e => e.resolve_left ht
  have hsame : ∀ p, p ≠ .closeRWaitUa → t.phase = p → s.phase = p := fun p hne e =>
    hp.elim (fun e' => e' ▸ e) fun e' => absurd (e.symm.trans e'.2) hne
  refine ⟨⟨h2.config.trans h1.config, ?_, ?_⟩, h2.kept.trans h1.kept, ?_, ?_, ?_⟩
  · exact hn ▸ h2.nextSeq.imp_right fun e => ⟨hsame _ (by simp) e.1, e.2⟩
  · exact he ▸ h2.expectedSeq.imp_right fun e => ⟨hsame _ (by simp) e.1, e.2⟩
  · rcases h2.fate with e | e
    · exact e ▸ h1.fate
    · exact .inr e
  · rcases h2.phase with e | e | e
    · exact e ▸ h1.phase
    · exact .inr (.inl e)
    · exact .inr (.inr ⟨hsame _ (by simp) e.1, e.2⟩)
  · rcases h2.rxBuf with e | e
    · exact .inl (hsame _ (by simp) e)
    · exact e ▸ h1.rxBuf

/-- A failed write, by its fields. -/
theorem channelError_effect {s : State} (q : List Byte) :
    ByteEffect s (channelError { s with txq := q, writeFate := none }) :=
  ⟨⟨rfl, .inl rfl, .inl rfl⟩, rfl, .inr rfl, .inr (.inl rfl), .inr rfl⟩

/-- Only the branch in which the write succeeds has to be looked at. -/
theorem ByteEffect.transmit {l : List Byte} {f : State → State} {s : State} (hf : ∀ q, ByteEffect s (f { s with txq := q })) :
    ByteEffect s (transmit l f s) :=
  transmit_ind hf channelError_effect

/-- The end of an operation with a new CONN_STATE. -/
theorem ended_effect (c : ConnState) (s : State) (q : List Byte) :
    ByteEffect s (post .ok { s with txq := q, connState := c, recState := .idle }) := .ends rfl rfl

/-- A byte that moves the recognizer only. -/
theorem recStep_effect (K : List Byte) (b : Byte) (s : State) : ByteEffect s (recStep K b s) := .waits rfl rfl

theorem recStep_disarm_effect (K : List Byte) (b : Byte) (s : State) : ByteEffect s (disarm (recStep K b s)) :=
  .waits rfl rfl

theorem rxOpenIWaitUa_effect (b : Byte) {s : State} (hp : s.phase ≠ .idle) : Leads (ByteEffect s) (rxOpenIWaitUa b s) := by
  unfold rxOpenIWaitUa
  split_ifs
  · exact .next ((recStep_disarm_effect _ b s).trans (ended_effect .opened _ _) hp)
  · exact .next (recStep_effect _ b s)

theorem rxOpenRWaitSet_effect (b : Byte) {s : State} (hp : s.phase ≠ .idle) : Leads (ByteEffect s) (rxOpenRWaitSet b s) := by
  unfold rxOpenRWaitSet
  split_ifs
  · exact .next ((recStep_effect _ b s).trans (.transmit (ended_effect .opened _)) hp)
  · exact .next (recStep_effect _ b s)

theorem rxCloseIWaitDisc_effect (b : Byte) {s : State} (hp : s.phase ≠ .idle) :
    Leads (ByteEffect s) (rxCloseIWaitDisc b s) := by
  unfold rxCloseIWaitDisc
  split_ifs
  · exact .next ((recStep_disarm_effect _ b s).trans (.transmit (ended_effect .closed _)) hp)
  · exact .next (recStep_effect _ b s)

theorem rxCloseRWaitDisc_effect {b : Byte} {s : State} (hp : s.phase = .closeRWaitDisc) :
    Leads (ByteEffect s) (rxCloseRWaitDisc b s) := by
  unfold rxCloseRWaitDisc
  split_ifs
  · exact .next ((recStep_effect _ b s).trans (.transmit fun _ => .of_stable rfl (.inr (.inr ⟨hp, rfl⟩))) (by simp [hp]))
  · exact .next (recStep_effect _ b s)

theorem rxCloseRWaitUa_effect (b : Byte) {s : State} (hp : s.phase ≠ .idle) : Leads (ByteEffect s) (rxCloseRWaitUa b s) := by
  unfold rxCloseRWaitUa
  split_ifs
  · exact .next ((recStep_effect _ b s).trans (ended_effect .closed _ _) hp)
  · exact .next (recStep_effect _ b s)

/-- The matched ACK flips NEXT_SEQ and ends the SEND with Ok (R224). -/
theorem ackMatched_effect {s : State} (hp : s.phase = .sendWaitReply) : ByteEffect s (ackMatched s) :=
  ⟨⟨rfl, .inr ⟨hp, ⟨rfl, rfl, rfl⟩, rfl⟩, .inl rfl⟩, rfl, .inl rfl, .inr (.inl rfl), .inr rfl⟩

/-- The frame in flight is sent again and the block waits on. -/
theorem sendFrame_effect {s : State} (hp : s.phase = .sendWaitReply) : Leads (ByteEffect s) (sendFrame s) :=
  sendFrame_leads (fun _ => .waits rfl hp.symm) channelError_effect

theorem rxSendWaitReply_effect {b : Byte} {s : State} (hp : s.phase = .sendWaitReply) :
    Leads (ByteEffect s) (rxSendWaitReply b s) := by
  have hi : s.phase ≠ .idle := by simp [hp]
  unfold rxSendWaitReply
  split_ifs
  · exact .next ((recStep_effect _ b s).trans (ackMatched_effect hp) hi)
  · exact (sendFrame_effect (s := disarm (recStep _ b s)) hp).imp fun t h => (recStep_disarm_effect _ b s).trans h hi
  · exact .next (.waits rfl rfl)
  · exact .next (recStep_effect _ b s)

/-- The receiver's rules that neither transmit nor end the operation. -/
theorem storeByte_effect {d : Byte} {s u : State} {e : Bool} (hu : u = { s with rxEsc := e }) (hp : s.phase = .recv) :
    Leads (ByteEffect s) (storeByte d u) := by
  subst hu
  unfold storeByte
  split
  · split
    · exact .next ⟨⟨rfl, .inl rfl, .inl rfl⟩, rfl, .inl rfl, .inl rfl, .inl hp⟩
    · exact .fault
  · exact .next ⟨⟨rfl, .inl rfl, .inl rfl⟩, rfl, .inl rfl, .inl rfl, .inl hp⟩

/-- Back to scanning without a reply. -/
theorem rescan_effect (s : State) (e : Bool) (q : List Byte) :
    ByteEffect s { s with rxEsc := e, txq := q, recState := .idle } := .waits rfl rfl

theorem endOfFrame_effect {s : State} (hp : s.phase = .recv) : Leads (ByteEffect s) (endOfFrame s) := by
  unfold endOfFrame
  split
  · exact .next (rescan_effect s _ _)
  split
  · split
    · split
      · exact .next (transmit_ind (rescan_effect s _) channelError_effect)
      · exact .next (transmit_ind
          (fun q => ⟨⟨rfl, .inl rfl, .inr ⟨hp, ⟨rfl, rfl, rfl⟩, rfl⟩⟩, rfl, .inl rfl, .inr (.inl rfl), .inl hp⟩)
          channelError_effect)
    · exact .next (transmit_ind (rescan_effect s _) channelError_effect)
  · exact .fault

theorem rxBody_effect {b : Byte} {s : State} (hp : s.phase = .recv) : Leads (ByteEffect s) (rxBody b s) := by
  unfold rxBody
  split_ifs
  · exact .next (rescan_effect s _ _)
  · exact storeByte_effect rfl hp
  · exact endOfFrame_effect hp
  · exact .next (.waits rfl rfl)
  · exact storeByte_effect rfl hp

theorem rxRecv_effect {b : Byte} {s : State} (hp : s.phase = .recv) : Leads (ByteEffect s) (rxRecv b s) := by
  unfold rxRecv
  split
  · exact .next (recStep_effect _ b s)
  · exact .next (recStep_effect _ b s)
  · exact .next (recStep_effect _ b s)
  · split_ifs
    · exact .next (.waits rfl rfl)
    · exact .next (rescan_effect s _ _)
  · exact rxBody_effect hp
  · exact .next (rescan_effect s _ _)
  · exact .next (rescan_effect s _ _)

/-- One received byte, in any phase. -/
theorem rxByte_effect (b : Byte) (s : State) : Leads (ByteEffect s) (rxByte b s) := by
  cases hp : s.phase with
  | idle =>
    rw [rxByte_of_idle b hp]
    exact .next (.waits rfl rfl)
  | openIWaitUa => simpa only [rxByte, hp] using rxOpenIWaitUa_effect b (s := s) (by simp [hp])
  | openRWaitSet => simpa only [rxByte, hp] using rxOpenRWaitSet_effect b (s := s) (by simp [hp])
  | sendWaitReply => simpa only [rxByte, hp] using rxSendWaitReply_effect (b := b) hp
  | recv => simpa only [rxByte, hp] using rxRecv_effect (b := b) hp
  | closeIWaitDisc => simpa only [rxByte, hp] using rxCloseIWaitDisc_effect b (s := s) (by simp [hp])
  | closeRWaitDisc => simpa only [rxByte, hp] using rxCloseRWaitDisc_effect (b := b) hp
  | closeRWaitUa => simpa only [rxByte, hp] using rxCloseRWaitUa_effect b (s := s) (by simp [hp])

/-! ### A run of bytes -/

theorem deliver_effect (l : List Byte) (s : State) : Leads (ByteEffect s) (deliver l s) := by
  induction l generalizing s with
  | nil => exact .next (.waits rfl rfl)
  | cons b r ih =>
    by_cases hp : s.phase = .idle
    · rw [deliver_idle _ _ hp]
      exact .next (.waits rfl rfl)
    cases hb : rxByte b s with
    | next u =>
      have h1 := rxByte_effect b s u hb
      rw [deliver_cons b r s u hp hb]
      by_cases hi : u.phase = .idle
      · rw [deliver_idle _ _ hi]
        exact .next { h1 with }
      · exact (ih u).imp fun t h2 => h1.trans h2 hi
    | fault f => simp [Leads, deliver, hp, hb]
    | refused x => simp [Leads, deliver, hp, hb]

/-! ### The receive buffer under a whole frame -/

/-- What a TERM leaves behind in P_RECV: RXBUF as it was, and a block that is idle or scans from the start of a frame. -/
structure State.AfterTerm (s t : State) : Prop where
  rxBuf : t.rxBuf = s.rxBuf
  scans : t.phase = .idle ∨ t.phase = .recv ∧ (t.recState = .idle ∨ t.recState = .termSeen)

theorem rescan_afterTerm {s : State} (hp : s.phase = .recv) (e : Bool) (q : List Byte) :
    s.AfterTerm { s with rxEsc := e, txq := q, recState := .idle } :=
  ⟨rfl, .inr ⟨hp, .inl rfl⟩⟩

theorem endOfFrame_afterTerm {s : State} (hp : s.phase = .recv) : Leads s.AfterTerm (endOfFrame s) := by
  unfold endOfFrame
  split
  · exact .next (rescan_afterTerm hp _ _)
  split
  · split
    · split
      · exact .next (transmit_ind (rescan_afterTerm hp _) fun _ => ⟨rfl, .inl rfl⟩)
      · exact .next (transmit_ind (fun _ => ⟨rfl, .inl rfl⟩) fun _ => ⟨rfl, .inl rfl⟩)
    · exact .next (transmit_ind (rescan_afterTerm hp _) fun _ => ⟨rfl, .inl rfl⟩)
  · exact .fault

theorem rxByte_term_recv {s : State} (h : s.Inv) (hp : s.phase = .recv) : Leads s.AfterTerm (rxByte TERM s) := by
  have hkey : TERM ∉ keyInfo := by decide
  have hrx : rxByte TERM s = rxRecv TERM s := by simp [rxByte, hp]
  rw [hrx]
  cases hr : s.recState with
  | idle | termSeen | addrSeen =>
    simp only [rxRecv, hr]
    exact .next ⟨rfl, .inr ⟨hp, by simp [recNext, hr, hkey]⟩⟩
  | ctrlSeen =>
    have hne : TERM ≠ bcc1 ADDR s.recCtrl :=
      (bcc1_ne_term_of_mem_keyOf _ _ _ (h.control.ctrlInKey (.inl hr))).symm
    simp only [rxRecv, hr, if_neg hne]
    exact .next (rescan_afterTerm hp _ _)
  | body =>
    simp only [rxRecv, hr, rxBody, if_true]
    split_ifs
    · exact .next (rescan_afterTerm hp _ _)
    · exact endOfFrame_afterTerm hp
  | bccSeen | done =>
    simp only [rxRecv, hr]
    exact .next (rescan_afterTerm hp _ _)

/-- From Idle the bytes up to the next TERM are skipped. -/
theorem deliver_skip_to_term {l : List Byte} {s : State} (hp : s.phase ≠ .idle) (hr : s.recState = .idle) (hl : TERM ∉ l) :
    deliver (l ++ [TERM]) s = .next { s with recState := .termSeen } := by
  rw [deliver_idle_skip l [TERM] s hp hr hl, deliver_one _ _ hp, rxByte_idle_term s hp hr]

/-- Only a frame whose opening TERM is taken as one can change RXBUF. -/
theorem deliver_frame_recv {P : Memory → Prop} {inner : List Byte} {s : State} (h : s.Inv) (hp : s.phase = .recv)
    (hi : TERM ∉ inner) (hs : P s.rxBuf)
    (scan : ∀ u : State, u.Inv → u.phase = .recv → u.recState = .termSeen → u.rxBuf = s.rxBuf →
      Leads (fun t => P t.rxBuf) (deliver (inner ++ [TERM]) u)) :
    Leads (fun t => P t.rxBuf) (deliver (TERM :: (inner ++ [TERM])) s) := by
  obtain ⟨u, hu, hinv⟩ := rxByte_keeps TERM h
  obtain ⟨hbuf, hscan⟩ := rxByte_term_recv h hp u hu
  rw [deliver_cons _ _ s u (by simp [hp]) hu]
  rcases hscan with hidle | ⟨hrecv, hrec | hrec⟩
  · rw [deliver_idle _ _ hidle]
    exact .next (hbuf ▸ hs)
  · rw [deliver_skip_to_term (by simp [hrecv]) hrec hi]
    exact .next (hbuf ▸ hs)
  · exact scan u hinv hrecv hrec hbuf

/-- The address byte after an opening TERM. -/
theorem rxByte_address {s : State} (hp : s.phase = .recv) (hr : s.recState = .termSeen) :
    rxByte ADDR s = .next { s with recState := .addrSeen } := by
  have ha : ADDR ≠ TERM := by decide
  rw [rxByte_recvScan _ _ hp (by simp [hr])]
  simp [recStep, recNext, hr, ha]

/-- A supervisory frame stores no byte. -/
theorem deliver_supervisory_rxBuf {c : Byte} {s : State} (h : s.Inv) (hp : s.phase = .recv) (hc : c ∉ keyInfo)
    (ht : TERM ∉ [ADDR, c, bcc1 ADDR c]) : Leads (fun t => t.rxBuf = s.rxBuf) (deliver (encodeS ADDR c) s) := by
  refine deliver_frame_recv (P := fun m => m = s.rxBuf) h hp ht rfl fun u hu hrecv hrec hbuf => ?_
  have hi : u.phase ≠ .idle := by simp [hrecv]
  have hctrl : rxByte c { u with recState := .addrSeen } = .next { u with recState := .idle } := by
    rw [rxByte_recvScan _ { u with recState := .addrSeen } hrecv (by simp)]
    simp [recStep, recNext, hc]
  rw [List.cons_append, deliver_cons _ _ u _ hi (rxByte_address hrecv hrec), List.cons_append,
    deliver_cons _ _ { u with recState := .addrSeen } _ hi hctrl,
    deliver_skip_to_term (s := { u with recState := .idle }) hi rfl (by simp at ht ⊢; exact ht.2.2)]
  exact .next hbuf

/-! ### The body of an I frame -/

/-- Body between two destuffed bytes, with the bounds of the invariant. -/
structure State.InBody (s : State) : Prop where
  phase : s.phase = .recv
  recState : s.recState = .body
  rxEsc : s.rxEsc = false
  lenBound : s.rxLen ≤ s.cfgMaxPayload + 1
  maxFits : s.cfgMaxPayload ≤ s.bufSize

theorem Stored.inBody {d : List Byte} {s t : State} (h : Stored d s t) (hs : s.InBody) : t.InBody := by
  rw [h.eq]
  exact { hs with lenBound := Nat.min_le_right _ _ }

/-- One stuffed byte stores its raw byte (R254, R255). -/
theorem deliver_stuff (d : Byte) {s : State} (h : s.InBody) : ∃ t, deliver (stuff d) s = .next t ∧ Stored [d] s t := by
  obtain ⟨t, ht, hst⟩ := storeByte_stored d s h.lenBound h.maxFits
  refine ⟨t, ?_, hst⟩
  obtain ⟨hp, hr, he, -, -⟩ := h
  have hi : s.phase ≠ .idle := by simp [hp]
  have hbody : ∀ b e, rxByte b { s with rxEsc := e } = rxBody b { s with rxEsc := e } := fun b e => by
    simp [rxByte, hp, rxRecv, hr]
  have hself : { s with rxEsc := false } = s := by rw [← he]
  unfold stuff
  split_ifs with hd
  · have hesc : rxByte ESC s = .next { s with rxEsc := true } := by
      have hterm : ESC ≠ TERM := by decide
      rw [← hself, hbody]
      simp [rxBody, escAfter, hterm]
    have hne : d ^^^ STUFF_XOR ≠ TERM := by rcases hd with rfl | rfl <;> decide
    have hback : d ^^^ STUFF_XOR ^^^ STUFF_XOR = d := by rw [BitVec.xor_assoc, BitVec.xor_self, BitVec.xor_zero]
    rw [deliver_cons _ _ s _ hi hesc, deliver_one _ { s with rxEsc := true } hi, hbody]
    simp only [rxBody, if_true, if_neg hne, hback, hself]
    exact ht
  · simp only [not_or] at hd
    rw [deliver_one _ _ hi, ← hself, hbody, hself]
    simpa [rxBody, he, hd.1, escAfter, hd.2] using ht

/-- A stuffed list stores its raw bytes. -/
theorem deliver_stuffList (l : List Byte) {s : State} (h : s.InBody) :
    ∃ t, deliver (stuffList l) s = .next t ∧ Stored l s t := by
  induction l generalizing s with
  | nil => exact ⟨s, rfl, .refl s h.lenBound⟩
  | cons d r ih =>
    obtain ⟨u, hu, hsu⟩ := deliver_stuff d h
    have hbu := hsu.inBody h
    obtain ⟨t, ht, hst⟩ := ih hbu
    exact ⟨t, by rw [stuffList, deliver_append _ _ _ _ hu (by simp [hbu.phase]), ht], hsu.trans hst⟩

theorem stuffList_append_singleton (l : List Byte) (d : Byte) : stuffList (l ++ [d]) = stuffList l ++ stuff d := by
  induction l with
  | nil => simp [stuffList]
  | cons b r ih => simp [stuffList, ih]

theorem C_I_mem_keyInfo (b : SeqBit) : C_I b ∈ keyInfo := by revert b; decide

/-- The header of an I frame, from TermSeen, enters Body (R253). -/
theorem deliver_infoHeader (b : SeqBit) (r : List Byte) {s : State} (hp : s.phase = .recv) (hr : s.recState = .termSeen) :
    deliver (ADDR :: C_I b :: bcc1 ADDR (C_I b) :: r) s =
      deliver r (enterBody { s with recState := .ctrlSeen, recCtrl := C_I b }) := by
  have hi : s.phase ≠ .idle := by simp [hp]
  have hkey := C_I_mem_keyInfo b
  have hctrl : rxByte (C_I b) { s with recState := .addrSeen } = .next { s with recState := .ctrlSeen, recCtrl := C_I b } := by
    rw [rxByte_recvScan _ { s with recState := .addrSeen } hp (by simp)]
    simp [recStep, recNext, hkey]
  have henter : rxByte (bcc1 ADDR (C_I b)) { s with recState := .ctrlSeen, recCtrl := C_I b } =
      .next (enterBody { s with recState := .ctrlSeen, recCtrl := C_I b }) := by
    simp [rxByte, hp, rxRecv]
  rw [deliver_cons _ _ s _ hi (rxByte_address hp hr), deliver_cons _ _ { s with recState := .addrSeen } _ hi hctrl,
    deliver_cons _ _ { s with recState := .ctrlSeen, recCtrl := C_I b } _ hi henter]

/-- An I frame stores its payload and its BCC2, and nothing above them. -/
theorem deliver_info_rxBuf (b : SeqBit) (p : List Byte) {s : State} (h : s.Inv) (hp : s.phase = .recv) :
    Leads (fun t => ∀ j, p.length < j → memGet t.rxBuf j = memGet s.rxBuf j) (deliver (encodeI ADDR (C_I b) p) s) := by
  have hinner : TERM ∉ ADDR :: C_I b :: bcc1 ADDR (C_I b) :: stuffList (p ++ [xorFold p]) := by
    have hheader : TERM ∉ [ADDR, C_I b, bcc1 ADDR (C_I b)] := by revert b; decide
    simp only [List.mem_cons, List.not_mem_nil, or_false, not_or] at hheader ⊢
    exact ⟨hheader.1, hheader.2.1, hheader.2.2, term_not_mem_stuffList _⟩
  have hframe : encodeI ADDR (C_I b) p =
      TERM :: (ADDR :: C_I b :: bcc1 ADDR (C_I b) :: stuffList (p ++ [xorFold p]) ++ [TERM]) := by
    simp [encodeI, stuffList_append_singleton]
  rw [hframe]
  refine deliver_frame_recv (P := fun m => ∀ j, p.length < j → memGet m j = memGet s.rxBuf j) h hp hinner
    (fun _ _ => rfl) fun u hu hrecv hrec hbuf => ?_
  simp only [List.cons_append]
  rw [deliver_infoHeader b _ hrecv hrec]
  have hinv : (enterBody { u with recState := .ctrlSeen, recCtrl := C_I b }).Inv := by
    refine enterBody_inv (hu.setRec (by simp [hrecv]) (by simp) (by simp) (by simp) fun _ => ?_) hrecv rfl
    simpa [keyOf, hrecv] using C_I_mem_keyInfo b
  obtain ⟨w, hw, hsw⟩ := deliver_stuffList (p ++ [xorFold p])
    (s := enterBody { u with recState := .ctrlSeen, recCtrl := C_I b })
    ⟨hrecv, rfl, rfl, Nat.zero_le _, hu.buffers.maxFits⟩
  have hwrecv : w.phase = .recv := by rw [hsw.eq]; exact hrecv
  have hwi : w.phase ≠ .idle := by simp [hwrecv]
  rw [deliver_append _ _ _ w hw hwi, deliver_one _ _ hwi]
  refine (rxByte_term_recv ((deliver_keeps _ hinv).inv hw) hwrecv).imp fun t ht j hj => ?_
  rw [ht.rxBuf, hsw.get, if_neg (by simp [enterBody]; omega)]
  exact congrArg (memGet · j) hbuf

/-- What a frame with this payload, if any, keeps of RXBUF. -/
structure RxBufAbove (payload : Option (List Byte)) (s t : State) : Prop where
  supervisory : payload = none → t.rxBuf = s.rxBuf
  info : ∀ p, payload = some p → ∀ j, p.length < j → memGet t.rxBuf j = memGet s.rxBuf j

theorem exec_frame_rxBuf {i : Instr} {s : State} (hi : i.isFrame = true) (h : s.Inv) (hp : s.phase = .recv) :
    Leads (RxBufAbove (infoPayload i) s) (exec i s) := by
  have supervisory : ∀ c, c ∉ keyInfo → TERM ∉ [ADDR, c, bcc1 ADDR c] →
      Leads (RxBufAbove none s) (deliver (encodeS ADDR c) s) := fun c hc ht =>
    (deliver_supervisory_rxBuf h hp hc ht).imp fun t hb => ⟨fun _ => hb, by simp⟩
  have info : ∀ b q, Leads (RxBufAbove (some q) s) (deliver (encodeI ADDR (C_I b) q) s) := fun b q =>
    (deliver_info_rxBuf b q h hp).imp fun t hb => ⟨by simp, fun p e => Option.some.inj e ▸ hb⟩
  rw [exec_frame i s hi]
  cases i with
  | setFrame | uaFrame | discFrame | rr0Frame | rr1Frame | rej0Frame | rej1Frame =>
    exact supervisory _ (by decide) (by decide)
  | i0Frame q => exact info 0 q
  | i1Frame q => exact info 1 q
  | openCmd _ | sendCmd _ | receiveCmd | closeCmd => simp [Instr.isFrame] at hi

/-- Settles O50: what every received byte keeps, and what a whole frame may write of RXBUF. -/
theorem framesLeaveTheRestUnchanged : Obligations.FramesLeaveTheRestUnchanged := by
  intro i s t hi h ht
  have heff : ByteEffect s t := deliver_effect _ s t (exec_frame i s hi ▸ ht)
  have hkept := heff.kept
  simp only [State.unreceived, Prod.mk.injEq] at hkept
  obtain ⟨hconfig, htxLen, htxBuf, hport, hagenda, hchannel, hsize, hdraws, hretry⟩ := hkept
  have hother : s.phase ≠ .recv → t.rxBuf = s.rxBuf := heff.rxBuf.resolve_left
  have hrecv : s.phase = .recv → RxBufAbove (infoPayload i) s t := fun hp => exec_frame_rxBuf hi h hp t ht
  refine ⟨hconfig, htxLen, fun j => by rw [htxBuf], hport, hagenda, hchannel, hsize, hdraws, hretry, heff.fate,
    fun hp => heff.nextSeq.resolve_right fun e => hp e.1,
    fun hp => heff.expectedSeq.resolve_right fun e => hp e.1, fun hcase j => ?_, fun p hpay j hj => ?_⟩
  · by_cases hp : s.phase = .recv
    · rw [(hrecv hp).supervisory (hcase.resolve_left (absurd hp))]
    · rw [hother hp]
  · by_cases hp : s.phase = .recv
    · exact (hrecv hp).info p hpay j hj
    · rw [hother hp]

/-! ### A command -/

/-- What no command changes (R25, R41). -/
def State.receiverSide (s : State) :=
  (s.rxq, s.agenda, s.testChannel, s.bufSize, s.draws, s.recCtrl, s.rxEsc, s.rxOvf, s.rxLen, s.rxSeq, s.rxXor, s.rxBuf)

/-- What only SEND changes (R40). -/
def State.txSide (s : State) : Nat × Memory := (s.txLen, s.txBuf)

/-- The frame of a command that is neither OPEN nor SEND. -/
structure CommandEffect (s t : State) : Prop where
  receiver : t.receiverSide = s.receiverSide
  tx : t.txSide = s.txSide
  link : t.linkRegs = s.linkRegs
  port : s.phase = .idle → t.port = s.port

theorem execReceive_effect (s : State) : Leads (CommandEffect s) (execReceive s) := by
  unfold execReceive
  split_ifs with hp
  · unfold runReceive
    split_ifs
    · exact .next ⟨rfl, rfl, rfl, fun _ => rfl⟩
    · exact .next ⟨rfl, rfl, rfl, fun _ => rfl⟩
  · exact .next ⟨rfl, rfl, rfl, fun e => absurd e hp⟩

theorem execClose_effect (s : State) : Leads (CommandEffect s) (execClose s) := by
  unfold execClose
  split_ifs with hp
  · unfold runClose
    split_ifs
    · split
      · exact .next (transmit_ind (fun _ => ⟨rfl, rfl, rfl, fun _ => rfl⟩) fun _ => ⟨rfl, rfl, rfl, fun _ => rfl⟩)
      · exact .next ⟨rfl, rfl, rfl, fun _ => rfl⟩
    · exact .next ⟨rfl, rfl, rfl, fun _ => rfl⟩
  · exact .next ⟨rfl, rfl, rfl, fun e => absurd e hp⟩

/-- OPEN: accepted, it sets the configuration and clears the sequence bits (R180). -/
structure OpenEffect (c : OpenConfig) (s t : State) : Prop where
  receiver : t.receiverSide = s.receiverSide
  tx : t.txSide = s.txSide
  link : t.linkRegs = s.linkRegs ∨ s.phase = .idle ∧ s.openAllowed c = true ∧ t.linkRegs = (c, 0, 0)
  port : s.phase = .idle → t.port = s.port

theorem execOpen_effect (c : OpenConfig) (s : State) : Leads (OpenEffect c s) (execOpen c s) := by
  unfold execOpen
  split_ifs with hp
  · unfold runOpen
    split_ifs with hok
    · split
      · exact .next (transmit_ind (fun _ => ⟨rfl, rfl, .inr ⟨hp, hok, rfl⟩, fun _ => rfl⟩)
          fun _ => ⟨rfl, rfl, .inr ⟨hp, hok, rfl⟩, fun _ => rfl⟩)
      · exact .next ⟨rfl, rfl, .inr ⟨hp, hok, rfl⟩, fun _ => rfl⟩
    · exact .next ⟨rfl, rfl, .inl rfl, fun _ => rfl⟩
  · exact .next ⟨rfl, rfl, .inl rfl, fun e => absurd e hp⟩

/-- A run of writes changes no index outside it. -/
theorem memGet_bufWriteRun_outside {cap : Nat} {l : List Byte} : ∀ {m m' : Memory} {i j : Nat},
    bufWriteRun cap m i l = some m' → j < i ∨ i + l.length ≤ j → memGet m' j = memGet m j := by
  induction l with
  | nil =>
    intro m m' i j h _
    obtain rfl : m = m' := Option.some.inj h
    rfl
  | cons v r ih =>
    intro m m' i j h hj
    simp only [List.length_cons] at hj
    simp only [bufWriteRun] at h
    split at h
    · rename_i m1 hw
      obtain ⟨-, rfl⟩ := bufWrite_eq_some.1 hw
      rw [ih h (by omega), memGet_memPut, if_neg (by omega)]
    · simp at h

/-- SEND: it writes TXBUF below its payload's length only (R220). -/
structure SendEffect (data : List Byte) (s t : State) : Prop where
  receiver : t.receiverSide = s.receiverSide
  txBuf : ∀ j, data.length ≤ j → memGet t.txBuf j = memGet s.txBuf j
  link : t.linkRegs = s.linkRegs
  port : s.phase = .idle → t.port = s.port

theorem execSend_effect (data : List Byte) (s : State) : Leads (SendEffect data s) (execSend data s) := by
  unfold execSend
  split_ifs with hp
  · unfold runSend
    split_ifs
    · split
      · rename_i m hm
        have hout : ∀ j, data.length ≤ j → memGet m j = memGet s.txBuf j := fun j hj =>
          memGet_bufWriteRun_outside hm (.inr (by omega))
        exact sendFrame_leads (fun _ => ⟨rfl, hout, rfl, fun _ => rfl⟩) fun _ => ⟨rfl, hout, rfl, fun _ => rfl⟩
      · exact .fault
    · exact .next ⟨rfl, fun _ _ => rfl, rfl, fun _ => rfl⟩
  · exact .next ⟨rfl, fun _ _ => rfl, rfl, fun e => absurd e hp⟩

/-- What a command of any kind keeps: the four frames together. -/
structure AnyCommandEffect (i : Instr) (s t : State) : Prop where
  receiver : t.receiverSide = s.receiverSide
  link : (∀ c, i ≠ .openCmd c) → t.linkRegs = s.linkRegs
  tx : (∀ d, i ≠ .sendCmd d) → t.txSide = s.txSide
  txBuf : ∀ d, i = .sendCmd d → ∀ j, d.length ≤ j → memGet t.txBuf j = memGet s.txBuf j
  port : s.phase = .idle → t.port = s.port

theorem CommandEffect.any {i : Instr} {s t : State} (h : CommandEffect s t) (hi : ∀ d, i ≠ .sendCmd d) :
    AnyCommandEffect i s t :=
  { h with
    link := fun _ => h.link
    tx := fun _ => h.tx
    txBuf := fun d e => absurd e (hi d) }

theorem exec_command_effect {i : Instr} (hi : i.isFrame = false) (s : State) : Leads (AnyCommandEffect i s) (exec i s) := by
  cases i <;> simp only [Instr.isFrame, reduceCtorEq] at hi
  case openCmd c =>
    exact (execOpen_effect c s).imp fun t h =>
      { h with
        link := fun e => absurd rfl (e c)
        tx := fun _ => h.tx
        txBuf := by simp }
  case sendCmd data =>
    exact (execSend_effect data s).imp fun t h =>
      { h with
        link := fun _ => h.link
        tx := fun e => absurd rfl (e data)
        txBuf := fun d e => Instr.sendCmd.inj e ▸ h.txBuf }
  case receiveCmd => exact (execReceive_effect s).imp fun t h => h.any (by simp)
  case closeCmd => exact (execClose_effect s).imp fun t h => h.any (by simp)

/-- Settles O51, from the frames of the four commands. -/
theorem commandsLeaveTheRestUnchanged : Obligations.CommandsLeaveTheRestUnchanged := by
  intro i s t hi ht
  obtain ⟨hrec, hlink, htx, htxBuf, hport⟩ := exec_command_effect hi s t ht
  simp only [State.receiverSide, State.linkRegs, State.txSide, Prod.mk.injEq] at hrec hlink htx
  obtain ⟨hrxq, hagenda, hchannel, hsize, hdraws, hctrl, hesc, hovf, hlen, hseq, hxor, hbuf⟩ := hrec
  exact ⟨hrxq, hagenda, hchannel, hsize, hdraws, hctrl, hesc, hovf, hlen, hseq, hxor, fun j => by rw [hbuf], hlink,
    fun e => ⟨(htx e).1, fun j => by rw [(htx e).2]⟩, htxBuf, hport⟩

/-! ### A step -/

theorem transmit_linkRegs {l : List Byte} {f : State → State} {s : State}
    (hf : ∀ q, (f { s with txq := q }).linkRegs = s.linkRegs) : (transmit l f s).linkRegs = s.linkRegs :=
  transmit_ind (P := fun t => t.linkRegs = s.linkRegs) hf fun _ => rfl

/-- A handshake's expiry, with either frame to send again. -/
theorem timeoutOpen_linkRegs (s : State) : Leads (fun t => t.linkRegs = s.linkRegs) (timeoutOpen s) := by
  unfold timeoutOpen
  split_ifs
  · exact .next rfl
  · exact .next (transmit_linkRegs (s := countRetry s) fun _ => rfl)

theorem timeoutClose_linkRegs (s : State) : Leads (fun t => t.linkRegs = s.linkRegs) (timeoutClose s) := by
  unfold timeoutClose
  split_ifs
  · exact .next rfl
  · exact .next (transmit_linkRegs (s := countRetry s) fun _ => rfl)

theorem sendFrame_linkRegs (s : State) : Leads (fun t => t.linkRegs = s.linkRegs) (sendFrame s) :=
  sendFrame_leads (fun _ => rfl) fun _ => rfl

theorem timeoutSend_linkRegs (s : State) : Leads (fun t => t.linkRegs = s.linkRegs) (timeoutSend s) := by
  unfold timeoutSend
  split_ifs
  · exact .next rfl
  · exact sendFrame_linkRegs (countRetry s)

theorem timeoutRule_linkRegs (s : State) : Leads (fun t => t.linkRegs = s.linkRegs) (timeoutRule s) := by
  unfold timeoutRule
  split
  · exact timeoutOpen_linkRegs s
  · exact timeoutClose_linkRegs s
  · exact timeoutSend_linkRegs s
  all_goals exact .next rfl

/-- The timer and its rules leave the configuration and the sequence bits alone. -/
theorem tick_linkRegs (s : State) : Leads (fun t => t.linkRegs = s.linkRegs) (tick s) := by
  unfold tick
  split_ifs
  · exact timeoutRule_linkRegs (disarm s)
  · exact .next rfl
  · exact .next rfl

theorem eventRx_link (s : State) : Leads (LinkEffect s) (eventRx s) := by
  unfold eventRx
  split
  · exact .next (.of_linkRegs_eq rfl)
  split_ifs
  · exact .next (.of_linkRegs_eq rfl)
  unfold consume
  split
  · exact (rxByte_effect _ _).imp fun t h => { h.toLinkEffect with }
  · exact (rxByte_effect _ _).imp fun t h => { h.toLinkEffect with }

/-- What stands at the front of RXQ is executed only if it is a frame. -/
theorem isFrame_of_toInstr {f : Frame} {i : Instr} (h : f.toInstr = .ok i) : i.isFrame = true := by
  unfold Frame.toInstr at h
  split_ifs at h
  split at h <;> simp only [Except.ok.injEq, reduceCtorEq] at h <;> subst h
  case h_4 => split_ifs <;> rfl
  case h_5 => split_ifs <;> rfl
  case h_6 => split_ifs <;> rfl
  all_goals rfl

theorem isFrame_of_fetchFrame {q : List Byte} {p : Instr × List Byte} (h : fetchFrame q = some p) : p.1.isFrame = true := by
  unfold fetchFrame at h
  split at h
  · rename_i i rest hd
    split_ifs at h
    obtain rfl := Option.some.inj h
    unfold decodeStream at hd
    split at hd
    · simp at hd
    · split at hd
      · rename_i j hj
        simp only [Except.ok.injEq, Prod.mk.injEq] at hd
        exact hd.1 ▸ isFrame_of_toInstr hj
      · simp at hd
  · simp at h

theorem eventFrame_link (s : State) : Leads (LinkEffect s) (eventFrame s) := by
  by_cases hc : s.testChannel = none
  · cases hf : fetchFrame s.rxq with
    | none =>
      rw [eventFrame_of_not_fetch (.inr hf)]
      exact eventRx_link s
    | some p =>
      rw [eventFrame_of_fetch hc hf, exec_frame _ _ (isFrame_of_fetchFrame hf)]
      exact (deliver_effect _ _).imp fun t h => { h.toLinkEffect with }
  · rw [eventFrame_of_not_fetch (.inl hc)]
    exact eventRx_link s

/-- The Cmd event takes an OPEN with this configuration, and its precondition holds (R180). -/
def State.CmdOpens (s : State) (c : OpenConfig) : Prop :=
  s.phase = .idle ∧ s.connState = .closed ∧ c.maxPayloadSize ≤ s.bufSize ∧
    ∃ r, s.port.head? = some r ∧ decodeCommand r = .openCmd c

theorem isFrame_decodeCommand (r : CmdRecord) : (decodeCommand r).isFrame = false := by
  unfold decodeCommand
  split_ifs <;> rfl

theorem eventCmd_link (s : State) :
    Leads (fun t => (∃ c, s.CmdOpens c ∧ t.linkRegs = (c, 0, 0)) ∨ t.linkRegs = s.linkRegs) (eventCmd s) := by
  unfold eventCmd
  split
  · exact .next (.inr rfl)
  split_ifs with hp
  · rename_i r rest hport
    by_cases ho : ∃ c, decodeCommand r = .openCmd c
    · obtain ⟨c, hc⟩ := ho
      rw [hc]
      refine (execOpen_effect c _).imp fun t h => ?_
      rcases h.link with e | ⟨-, hok, e⟩
      · exact .inr e
      · simp only [State.openAllowed, Bool.and_eq_true, decide_eq_true_eq] at hok
        exact .inl ⟨c, ⟨hp, hok.1, hok.2, r, by rw [hport]; rfl, hc⟩, e⟩
    · exact (exec_command_effect (isFrame_decodeCommand r) _).imp fun t h => .inr (h.link fun c e => ho ⟨c, e⟩)
  · exact .next (.inr rfl)

/-- What a step can do to the configuration and the sequence bits. -/
theorem step_link {s t : State} (h : step s = .next t) :
    s.NextEvent .reset ∨ (∃ c, s.AcceptsOpen c ∧ t.linkRegs = (c, 0, 0)) ∨ LinkEffect s t := by
  cases ha : s.agenda with
  | nil =>
    rw [step_of_agenda_nil ha] at h
    exact .inr (.inr (Leads.next (.of_linkRegs_eq rfl) t h))
  | cons e rest =>
    rw [step_of_agenda_cons ha] at h
    have hev : s.NextEvent e := by rw [State.NextEvent, ha]; rfl
    cases e with
    | reset => exact .inl hev
    | cmd =>
      rcases eventCmd_link _ t h with ⟨c, hc, e⟩ | e
      · exact .inr (.inl ⟨c, ⟨hev, hc⟩, e⟩)
      · exact .inr (.inr (.of_linkRegs_eq e))
    | rx => exact .inr (.inr { eventRx_link _ t h with })
    | frame => exact .inr (.inr { eventFrame_link _ t h with })
    | tick => exact .inr (.inr (.of_linkRegs_eq (tick_linkRegs { s with agenda := rest } t h)))
    | chErr =>
      refine .inr (.inr (.of_linkRegs_eq ?_))
      obtain rfl := Host.Outcome.next.inj h
      unfold chErr
      split_ifs <;> rfl
    | present _ | line _ | drain _ | writeFate _ =>
      obtain rfl := Host.Outcome.next.inj h
      exact .inr (.inr (.of_linkRegs_eq rfl))

/-- Settles O42: beside Reset only an accepted OPEN writes the configuration, with its own. -/
theorem configurationIsWrittenOnlyByOpen : Obligations.ConfigurationIsWrittenOnlyByOpen := by
  intro s t h
  rcases step_link h with hr | ⟨c, hc, e⟩ | e
  · exact .inr (.inl hr)
  · exact .inr (.inr ⟨c, hc, congrArg Prod.fst e⟩)
  · exact .inl e.config

/-- Settles O41: beside Reset and OPEN only the ends with Ok of SEND and RECEIVE change a sequence bit. -/
theorem sequenceBitsChangeOnlyByTheirRules : Obligations.SequenceBitsChangeOnlyByTheirRules := by
  intro s t h
  rcases step_link h with hr | ⟨c, hc, e⟩ | e
  · exact ⟨fun _ => .inl hr, fun _ => .inl hr⟩
  · simp only [State.linkRegs, Prod.mk.injEq] at e
    exact ⟨fun _ => .inr (.inl ⟨c, hc, e.2.1⟩), fun _ => .inr (.inl ⟨c, hc, e.2.2⟩)⟩
  · refine ⟨fun hne => .inr (.inr ?_), fun hne => .inr (.inr ?_)⟩
    · obtain ⟨hp, ⟨hi, hok, hv⟩, hflip⟩ := e.nextSeq.resolve_left hne
      exact ⟨hp, hi, hok, hv, hflip⟩
    · obtain ⟨hp, ⟨hi, hok, hv⟩, hflip⟩ := e.expectedSeq.resolve_left hne
      exact ⟨hp, hi, hok, hv, hflip⟩

end Sys2Proof.Machine
end

section
/-! PROOFS. The state after reset (R45, R351), and what the host reads (R43). -/

namespace Sys2Proof.Machine

/-! ### The state after reset -/

/-- Settles O45: nothing runs, nothing is stored, and the zero of CFG_MAX_PAYLOAD fits any buffer. -/
theorem resetStateMeetsTheInvariant : Obligations.ResetStateMeetsTheInvariant where
  control := by constructor <;> decide
  buffers :=
    { maxFits := Nat.zero_le _
      txWf := reset_memory_wf.1
      rxWf := reset_memory_wf.2
      txBelow := rfl
      rxBelow := rfl
      txFits := by decide
      txWritten := by simp [State.reset]
      resultFits := by decide
      resultWritten := by simp [State.reset] }
  body := body_of_ne (by decide)

/-- An accepted OPEN from a state whose next write succeeds starts the handshake with its configuration (R180). -/
theorem runOpen_of_allowed {c : OpenConfig} {s : State} (hok : s.openAllowed c = true) (hw : s.writeFate = none) :
    ∃ t, runOpen c s = .next t ∧ t.connState = .connecting ∧ t.config = c := by
  have hlatch : (latchConfig c s).writeFate = none := hw
  cases hr : c.role with
  | initiator =>
    refine ⟨startOpenInitiator (latchConfig c s), by simp [runOpen, hok, hr], ?_⟩
    rw [startOpenInitiator, transmit_none _ _ _ hlatch]
    exact ⟨rfl, rfl⟩
  | responder => exact ⟨startOpenResponder (latchConfig c s), by simp [runOpen, hok, hr], rfl, rfl⟩

/-- Settles O40: the connection of State.reset is Closed, so it allows an OPEN that fits and nothing else. -/
theorem resetStateAcceptsOnlyOpen : Obligations.ResetStateAcceptsOnlyOpen := by
  refine ⟨by decide, fun data => ?_, ?_, ?_, fun c hc => ?_⟩
  · exact ⟨badCommand State.reset, rfl, rfl, rfl, rfl⟩
  · exact ⟨badCommand State.reset, rfl, rfl, rfl, rfl⟩
  · exact ⟨badCommand State.reset, rfl, rfl, rfl, rfl⟩
  · have hok : State.reset.openAllowed c = true := (Bool.and_eq_true _ _).mpr ⟨rfl, decide_eq_true hc⟩
    exact runOpen_of_allowed hok rfl

/-! ### What the host reads -/

/-- While a body is received the host reads the bytes stored so far (R41). -/
theorem hostRead_rxBuf_body {s : State} (h : s.Inv) (hb : s.recState = .body) {i : Nat} (hi : i < s.rxLen) :
    (hostRead s).rxBuf[i]? = memGet s.rxBuf i := by
  obtain ⟨v, hv⟩ := Option.isSome_iff_exists.1 (h.body.written hb i hi)
  have hlen := h.body.lenBound hb
  have hmax := h.buffers.maxFits
  rw [hv]
  exact hostRead_rxBuf_held s i v (by omega) (by simp [State.rxHolds, hb, hi]) hv

/-- After a valid Ok the host reads the delivered payload, in RXBUF and as the payload (R70, R355). -/
theorem hostRead_delivered {s : State} (h : s.Inv) (hv : s.resultValid = true) (hr : s.result = .ok) :
    ∃ p, (hostRead s).payload = some p ∧ p.length = s.resultLen ∧
      ∀ i, i < s.resultLen → memGet s.rxBuf i = p[i]? ∧ (hostRead s).rxBuf[i]? = p[i]? := by
  have hlen := h.buffers.resultFits hv hr
  have hmax := h.buffers.maxFits
  obtain ⟨p, hp, hpl⟩ :=
    bufReadRun_isSome (s.bufSize + 1) (Config.unwrittenRx s.draws) s.rxBuf s.resultLen 0 (by omega)
  obtain ⟨-, hget⟩ := getElem?_of_bufReadRun _ _ _ _ _ _ hp
  have hpay : (hostRead s).payload = some p := (if_pos ⟨hv, hr⟩).trans hp
  refine ⟨p, hpay, hpl, fun i hi => ?_⟩
  obtain ⟨b, hb⟩ := Option.isSome_iff_exists.1 (h.buffers.resultWritten hv hr i hi)
  have hpi : p[i]? = some b := by rw [hget i hi, Nat.zero_add, hb, Option.getD_some]
  rw [hpi]
  exact ⟨hb, hostRead_rxBuf_held s i b (by omega) (by simp [State.rxHolds, hv, hr, hi]) hb⟩

/-- Settles O52: the numbers and the status registers are as defined, the bytes come from the invariant. -/
theorem hostReadsTheResultRecord : Obligations.HostReadsTheResultRecord := by
  refine ⟨by decide, by decide, by decide, by decide, fun s => ?_, fun s h => ⟨?_, ?_⟩, fun s h => ?_⟩
  · exact ⟨rfl, rfl, rfl, rfl, rfl, rfl, rfl, rfl, rfl, hostRead_rxBuf_length s⟩
  · exact fun hb i hi => hostRead_rxBuf_body h hb hi
  · exact hostRead_delivered h
  · exact delivered_eq_none s h

end Sys2Proof.Machine
end

section
/-! PROOFS. What waits while it is not enabled: a command while an operation runs, received bytes in P_IDLE (R63, R64, R68). -/

namespace Sys2Proof.Machine

/-- A command executed while an operation runs goes back to the front of the port (log 4). -/
theorem exec_command_waits {i : Instr} {r : CmdRecord} {s : State} (hp : s.phase ≠ .idle) (hr : encode i = .command r) :
    exec i s = .next { s with port := r :: s.port } := by
  cases i with
  | openCmd _ | sendCmd _ | receiveCmd | closeCmd =>
    obtain rfl := Encoded.command.inj hr
    exact if_neg hp
  | setFrame | uaFrame | discFrame | i0Frame _ | i1Frame _ | rr0Frame | rr1Frame | rej0Frame | rej1Frame =>
    simp [encode] at hr

/-- The Cmd event is not enabled while an operation runs (R68). -/
theorem eventCmd_of_running {s : State} (hp : s.phase ≠ .idle) : eventCmd s = .next s := by
  unfold eventCmd
  split
  · rfl
  · exact if_neg hp

/-- Settles O16: outside P_IDLE Cmd is not enabled; in P_IDLE it executes the oldest waiting record. -/
theorem commandsWaitWhileAnOperationRuns : Obligations.CommandsWaitWhileAnOperationRuns := by
  refine ⟨fun i r s hp hr => exec_command_waits hp hr, fun s rest hp ha => ?_, fun s r q rest hp ha hq => ?_⟩
  · rw [step_of_agenda_cons ha]
    exact eventCmd_of_running hp
  · rw [step_of_agenda_cons ha]
    exact eventCmd_of_port hp hq

/-- A frame executed in P_IDLE stands again before the bytes of RXQ (R64). -/
theorem exec_frame_idle {i : Instr} {s : State} (hi : i.isFrame = true) (hp : s.phase = .idle) :
    exec i s = .next { s with rxq := encodeWire i ++ s.rxq } := by
  rw [exec_frame i s hi, deliver_idle _ _ hp]

theorem eventRx_of_idle {s : State} (hp : s.phase = .idle) : eventRx s = .next s := by
  unfold eventRx
  split
  · rfl
  · exact if_pos hp

/-- What is fetched is the front of the stream, letter for letter. -/
theorem eq_of_fetchFrame {q : List Byte} {p : Instr × List Byte} (h : fetchFrame q = some p) :
    q = encodeWire p.1 ++ p.2 := by
  unfold fetchFrame at h
  split at h
  · split_ifs at h with hq
    exact Option.some.inj h ▸ hq
  · simp at h

/-- The frame event in P_IDLE puts back what it took from RXQ. -/
theorem eventFrame_of_idle {s : State} (hp : s.phase = .idle) : eventFrame s = .next s := by
  by_cases hc : s.testChannel = none
  · cases hf : fetchFrame s.rxq with
    | none => rw [eventFrame_of_not_fetch (.inr hf), eventRx_of_idle hp]
    | some p =>
      have hback : { s with rxq := encodeWire p.1 ++ p.2 } = s := by rw [← eq_of_fetchFrame hf]
      rw [eventFrame_of_fetch hc hf, exec_frame_idle (s := { s with rxq := p.2 }) (isFrame_of_fetchFrame hf) hp]
      exact congrArg _ hback
  · rw [eventFrame_of_not_fetch (.inl hc), eventRx_of_idle hp]

/-- Settles O23: in P_IDLE no byte is consumed, and bytes taken as a frame are put back. -/
theorem bytesWaitWhileTheBlockIsIdle : Obligations.BytesWaitWhileTheBlockIsIdle := by
  refine fun s hp => ⟨fun i hi => exec_frame_idle hi hp, fun rest ha => ?_, fun rest ha => ?_⟩
  · rw [step_of_agenda_cons ha]
    exact eventRx_of_idle (s := { s with agenda := rest }) hp
  · rw [step_of_agenda_cons ha]
    exact eventFrame_of_idle (s := { s with agenda := rest }) hp

end Sys2Proof.Machine
end

section
/-! PROOFS. What a step sends: nothing, one whole frame, or the part of one that a failing write lets through (R62, R317). -/

namespace Sys2Proof.Machine

/-! ### Frames -/

theorem isWholeFrame_encodeWire {i : Instr} (hi : i.isFrame = true) : IsWholeFrame (encodeWire i) := ⟨i, hi, rfl⟩

theorem isWholeFrame_setBytes : IsWholeFrame setBytes := isWholeFrame_encodeWire (i := .setFrame) rfl

theorem isWholeFrame_uaBytes : IsWholeFrame uaBytes := isWholeFrame_encodeWire (i := .uaFrame) rfl

theorem isWholeFrame_discBytes : IsWholeFrame discBytes := isWholeFrame_encodeWire (i := .discFrame) rfl

theorem isWholeFrame_rrBytes (n : SeqBit) : IsWholeFrame (rrBytes n) := by
  rcases seqBit_cases n with rfl | rfl
  · exact isWholeFrame_encodeWire (i := .rr0Frame) rfl
  · exact isWholeFrame_encodeWire (i := .rr1Frame) rfl

theorem isWholeFrame_rejBytes (n : SeqBit) : IsWholeFrame (rejBytes n) := by
  rcases seqBit_cases n with rfl | rfl
  · exact isWholeFrame_encodeWire (i := .rej0Frame) rfl
  · exact isWholeFrame_encodeWire (i := .rej1Frame) rfl

theorem isWholeFrame_inFlight (s : State) (p : List Byte) : IsWholeFrame (inFlight s p) := by
  unfold inFlight
  rcases seqBit_cases s.nextSeq with h | h <;> rw [h]
  · exact isWholeFrame_encodeWire (i := .i0Frame p) rfl
  · exact isWholeFrame_encodeWire (i := .i1Frame p) rfl

/-- A frame has TERM at its two ends and nowhere between (R91, R92). -/
theorem encodeWire_delimited {i : Instr} (hi : i.isFrame = true) :
    ∃ inner, encodeWire i = TERM :: (inner ++ [TERM]) ∧ TERM ∉ inner := by
  have hd : ∃ inner, encodeWire i = TERM :: ADDR :: inner ++ [TERM] ∧ TERM ∉ inner ∧ 2 ≤ inner.length := by
    cases i with
    | setFrame => exact Laws.Delimited.setFrame
    | uaFrame => exact Laws.Delimited.uaFrame
    | discFrame => exact Laws.Delimited.discFrame
    | i0Frame p => exact Laws.Delimited.i0Frame p
    | i1Frame p => exact Laws.Delimited.i1Frame p
    | rr0Frame => exact Laws.Delimited.rr0Frame
    | rr1Frame => exact Laws.Delimited.rr1Frame
    | rej0Frame => exact Laws.Delimited.rej0Frame
    | rej1Frame => exact Laws.Delimited.rej1Frame
    | openCmd _ | sendCmd _ | receiveCmd | closeCmd => simp [Instr.isFrame] at hi
  obtain ⟨inner, hw, ht, -⟩ := hd
  exact ⟨ADDR :: inner, hw, by simp [ht, show TERM ≠ ADDR by decide]⟩

/-! ### One Tx -/

/-- One frame has gone out, with the queue q and the channel's choice w before it: it is appended whole, or the choice was to
fail after n bytes and a channel error has ended the operation (R62, R317). -/
def SentFrame (q : List Byte) (w : Option Nat) (t : State) : Prop :=
  (∃ f, IsWholeFrame f ∧ t.txq = q ++ f) ∨
  (∃ f n, IsWholeFrame f ∧ w = some n ∧ t.txq = q ++ f.take n ∧ t.result = .channelError ∧ t.resultValid = true ∧
    t.connState = .closed)

/-- At most one frame has gone out. -/
def SendsAtMostOne (q : List Byte) (w : Option Nat) (t : State) : Prop := t.txq = q ∨ SentFrame q w t

/-- Every rule that transmits goes back to scanning, and so does a failed write. -/
structure Transmitted (q : List Byte) (w : Option Nat) (t : State) : Prop where
  sent : SentFrame q w t
  recIdle : t.recState = .idle

theorem transmit_transmitted {l : List Byte} {f : State → State} {s : State} (hl : IsWholeFrame l)
    (hq : ∀ q, (f { s with txq := q }).txq = q) (hr : ∀ q, (f { s with txq := q }).recState = .idle) :
    Transmitted s.txq s.writeFate (transmit l f s) := by
  rcases transmit_cases l f s with e | ⟨n, hn, e⟩ <;> rw [e]
  · exact ⟨.inl ⟨l, hl, hq _⟩, hr _⟩
  · exact ⟨.inr ⟨l, n, hl, hn, rfl, rfl, rfl, rfl⟩, rfl⟩

theorem sendFrame_transmitted (s : State) : Leads (Transmitted s.txq s.writeFate) (sendFrame s) := by
  unfold sendFrame
  split
  · exact .next (transmit_transmitted (isWholeFrame_inFlight s _) (fun _ => rfl) fun _ => rfl)
  · exact .fault

/-- What was sent after a part that sent nothing; a failed write would have used the choice up. -/
theorem SendsAtMostOne.after_quiet {s u t : State} (h : SendsAtMostOne u.txq u.writeFate t) (hq : u.txq = s.txq)
    (hw : u.writeFate = s.writeFate ∨ u.writeFate = none) : SendsAtMostOne s.txq s.writeFate t := by
  rw [hq] at h
  rcases hw with hw | hw <;> rw [hw] at h
  · exact h
  · exact h.imp_right (.imp_right fun ⟨_, _, _, hn, _⟩ => by simp at hn)

/-! ### A received byte -/

/-- A byte makes the block send only if it is a TERM. -/
def ByteSends (b : Byte) (q : List Byte) (w : Option Nat) (t : State) : Prop := t.txq = q ∨ b = TERM ∧ Transmitted q w t

theorem ByteSends.atMostOne {b : Byte} {q : List Byte} {w : Option Nat} {t : State} (h : ByteSends b q w t) :
    SendsAtMostOne q w t := h.imp_right fun e => e.2.sent

/-- A frame of a key is completed by its closing TERM (R151). -/
theorem eq_term_of_recNext_done {K : List Byte} {b : Byte} {st : RecState} {x : Byte}
    (h : (recNext K b st x).1 = .done) : b = TERM := by
  cases st with
  | bccSeen => exact by_contra fun hb => by simp [recNext, hb] at h
  | idle | termSeen | addrSeen | ctrlSeen => simp only [recNext] at h; split_ifs at h
  | body | done => simp [recNext] at h

section
variable (b : Byte) (s : State)

theorem rxOpenIWaitUa_sends : Leads (ByteSends b s.txq s.writeFate) (rxOpenIWaitUa b s) := by
  unfold rxOpenIWaitUa
  split_ifs
  · exact .next (.inl rfl)
  · exact .next (.inl rfl)

theorem rxOpenRWaitSet_sends : Leads (ByteSends b s.txq s.writeFate) (rxOpenRWaitSet b s) := by
  unfold rxOpenRWaitSet
  split_ifs with hd
  · exact .next (.inr ⟨eq_term_of_recNext_done hd,
      transmit_transmitted (s := recStep keySet b s) isWholeFrame_uaBytes (fun _ => rfl) fun _ => rfl⟩)
  · exact .next (.inl rfl)

theorem rxCloseIWaitDisc_sends : Leads (ByteSends b s.txq s.writeFate) (rxCloseIWaitDisc b s) := by
  unfold rxCloseIWaitDisc
  split_ifs with hd
  · exact .next (.inr ⟨eq_term_of_recNext_done hd,
      transmit_transmitted (s := disarm (recStep keyDisc b s)) isWholeFrame_uaBytes (fun _ => rfl) fun _ => rfl⟩)
  · exact .next (.inl rfl)

theorem rxCloseRWaitDisc_sends : Leads (ByteSends b s.txq s.writeFate) (rxCloseRWaitDisc b s) := by
  unfold rxCloseRWaitDisc
  split_ifs with hd
  · exact .next (.inr ⟨eq_term_of_recNext_done hd,
      transmit_transmitted (s := recStep keyDisc b s) isWholeFrame_discBytes (fun _ => rfl) fun _ => rfl⟩)
  · exact .next (.inl rfl)

theorem rxCloseRWaitUa_sends : Leads (ByteSends b s.txq s.writeFate) (rxCloseRWaitUa b s) := by
  unfold rxCloseRWaitUa
  split_ifs
  · exact .next (.inl rfl)
  · exact .next (.inl rfl)

/-- A REJ of the frame in flight sends it again (R225). -/
theorem rxSendWaitReply_sends : Leads (ByteSends b s.txq s.writeFate) (rxSendWaitReply b s) := by
  unfold rxSendWaitReply
  split_ifs with hd
  · exact .next (.inl rfl)
  · exact (sendFrame_transmitted (disarm (recStep (keyReply s.nextSeq) b s))).imp fun t h =>
      .inr ⟨eq_term_of_recNext_done hd, h⟩
  · exact .next (.inl rfl)
  · exact .next (.inl rfl)

theorem storeByte_txq (d : Byte) : Leads (fun t => t.txq = s.txq) (storeByte d s) := by
  unfold storeByte
  split
  · split
    · exact .next rfl
    · exact .fault
  · exact .next rfl

/-- The end of an I frame is answered once at most (R259 to R262). -/
theorem endOfFrame_sends : Leads (fun t => t.txq = s.txq ∨ Transmitted s.txq s.writeFate t) (endOfFrame s) := by
  unfold endOfFrame
  split
  · exact .next (.inl rfl)
  split
  · split
    · split
      · exact .next (.inr (transmit_transmitted (isWholeFrame_rrBytes _) (fun _ => rfl) fun _ => rfl))
      · exact .next (.inr (transmit_transmitted (isWholeFrame_rrBytes _) (fun _ => rfl) fun _ => rfl))
    · exact .next (.inr (transmit_transmitted (isWholeFrame_rejBytes _) (fun _ => rfl) fun _ => rfl))
  · exact .fault

theorem rxBody_sends : Leads (ByteSends b s.txq s.writeFate) (rxBody b s) := by
  unfold rxBody
  split_ifs with _ _ hb
  · exact .next (.inl rfl)
  · exact (storeByte_txq { s with rxEsc := false } _).imp fun _ h => .inl h
  · exact (endOfFrame_sends s).imp fun _ h => h.imp_right fun e => ⟨hb, e⟩
  · exact .next (.inl rfl)
  · exact (storeByte_txq s b).imp fun _ h => .inl h

theorem rxRecv_sends : Leads (ByteSends b s.txq s.writeFate) (rxRecv b s) := by
  unfold rxRecv
  split
  · exact .next (.inl rfl)
  · exact .next (.inl rfl)
  · exact .next (.inl rfl)
  · split_ifs
    · exact .next (.inl rfl)
    · exact .next (.inl rfl)
  · exact rxBody_sends b s
  · exact .next (.inl rfl)
  · exact .next (.inl rfl)

/-- One received byte, in any phase. -/
theorem rxByte_sends : Leads (ByteSends b s.txq s.writeFate) (rxByte b s) := by
  unfold rxByte
  split
  · exact .next (.inl rfl)
  · exact rxOpenIWaitUa_sends b s
  · exact rxOpenRWaitSet_sends b s
  · exact rxSendWaitReply_sends b s
  · exact rxRecv_sends b s
  · exact rxCloseIWaitDisc_sends b s
  · exact rxCloseRWaitDisc_sends b s
  · exact rxCloseRWaitUa_sends b s

end

/-! ### A whole frame -/

/-- Only the last byte of a run with its one TERM at the end can make the block send. -/
theorem deliver_to_term_sends {l : List Byte} {s : State} (hl : TERM ∉ l) :
    Leads (SendsAtMostOne s.txq s.writeFate) (deliver (l ++ [TERM]) s) := by
  by_cases hp : s.phase = .idle
  · rw [deliver_idle _ _ hp]
    exact .next (.inl rfl)
  induction l generalizing s with
  | nil =>
    rw [List.nil_append, deliver_one _ _ hp]
    exact (rxByte_sends TERM s).imp fun _ h => h.atMostOne
  | cons b r ih =>
    simp only [List.mem_cons, not_or] at hl
    cases hb : rxByte b s with
    | next u =>
      have hq : u.txq = s.txq := (rxByte_sends b s u hb).resolve_right fun e => hl.1 e.1.symm
      have hw := (rxByte_effect b s u hb).fate
      rw [List.cons_append, deliver_cons b _ s u hp hb]
      by_cases hi : u.phase = .idle
      · rw [deliver_idle _ _ hi]
        exact .next (.inl hq)
      · exact (ih hl.2 hi).imp fun _ h => h.after_quiet hq hw
    | fault f => simp [Leads, deliver, hp, hb]
    | refused x => simp [Leads, deliver, hp, hb]

/-- A frame's opening TERM may close an earlier one and be answered; then the block scans from Idle and skips the rest. -/
theorem deliver_frame_sends {inner : List Byte} (s : State) (hl : TERM ∉ inner) :
    Leads (SendsAtMostOne s.txq s.writeFate) (deliver (TERM :: (inner ++ [TERM])) s) := by
  by_cases hp : s.phase = .idle
  · rw [deliver_idle _ _ hp]
    exact .next (.inl rfl)
  cases hb : rxByte TERM s with
  | next u =>
    rw [deliver_cons _ _ s u hp hb]
    rcases rxByte_sends TERM s u hb with hq | ⟨-, ht⟩
    · exact (deliver_to_term_sends hl).imp fun _ h => h.after_quiet hq (rxByte_effect TERM s u hb).fate
    · by_cases hi : u.phase = .idle
      · rw [deliver_idle _ _ hi]
        exact .next (.inr ht.sent)
      · rw [deliver_skip_to_term hi ht.recIdle hl]
        exact .next (.inr ht.sent)
  | fault f => simp [Leads, deliver, hp, hb]
  | refused x => simp [Leads, deliver, hp, hb]

/-! ### Commands -/

section
variable (s : State)

theorem execOpen_sends (c : OpenConfig) : Leads (SendsAtMostOne s.txq s.writeFate) (execOpen c s) := by
  unfold execOpen
  split_ifs
  · unfold runOpen
    split_ifs
    · split
      · exact .next (.inr
          (transmit_transmitted (s := latchConfig c s) isWholeFrame_setBytes (fun _ => rfl) fun _ => rfl).sent)
      · exact .next (.inl rfl)
    · exact .next (.inl rfl)
  · exact .next (.inl rfl)

theorem execClose_sends : Leads (SendsAtMostOne s.txq s.writeFate) (execClose s) := by
  unfold execClose
  split_ifs
  · unfold runClose
    split_ifs
    · split
      · exact .next (.inr
          (transmit_transmitted (s := startClosing s) isWholeFrame_discBytes (fun _ => rfl) fun _ => rfl).sent)
      · exact .next (.inl rfl)
    · exact .next (.inl rfl)
  · exact .next (.inl rfl)

theorem execSend_sends (data : List Byte) : Leads (SendsAtMostOne s.txq s.writeFate) (execSend data s) := by
  unfold execSend
  split_ifs
  · unfold runSend
    split_ifs
    · split
      · exact (sendFrame_transmitted _).imp fun _ h => .inr h.sent
      · exact .fault
    · exact .next (.inl rfl)
  · exact .next (.inl rfl)

/-- RECEIVE sends nothing (R250). -/
theorem execReceive_txq : Leads (fun t => t.txq = s.txq) (execReceive s) := by
  unfold execReceive
  split_ifs
  · unfold runReceive
    split_ifs
    · exact .next rfl
    · exact .next rfl
  · exact .next rfl

/-- One instruction, a frame or a command. -/
theorem exec_sends (i : Instr) : Leads (SendsAtMostOne s.txq s.writeFate) (exec i s) := by
  have frame : i.isFrame = true → Leads (SendsAtMostOne s.txq s.writeFate) (exec i s) := fun hi => by
    obtain ⟨inner, hw, hl⟩ := encodeWire_delimited hi
    rw [exec_frame i s hi, hw]
    exact deliver_frame_sends s hl
  cases i with
  | openCmd c => exact execOpen_sends s c
  | sendCmd data => exact execSend_sends s data
  | receiveCmd => exact (execReceive_txq s).imp fun _ h => .inl h
  | closeCmd => exact execClose_sends s
  | setFrame | uaFrame | discFrame | i0Frame _ | i1Frame _ | rr0Frame | rr1Frame | rej0Frame | rej1Frame =>
    exact frame rfl

/-! ### The timer -/

theorem timeoutOpen_sends : Leads (SendsAtMostOne s.txq s.writeFate) (timeoutOpen s) := by
  unfold timeoutOpen
  split_ifs
  · exact .next (.inl rfl)
  · exact .next (.inr (transmit_transmitted (s := countRetry s) isWholeFrame_setBytes (fun _ => rfl) fun _ => rfl).sent)

theorem timeoutClose_sends : Leads (SendsAtMostOne s.txq s.writeFate) (timeoutClose s) := by
  unfold timeoutClose
  split_ifs
  · exact .next (.inl rfl)
  · exact .next (.inr (transmit_transmitted (s := countRetry s) isWholeFrame_discBytes (fun _ => rfl) fun _ => rfl).sent)

theorem timeoutSend_sends : Leads (SendsAtMostOne s.txq s.writeFate) (timeoutSend s) := by
  unfold timeoutSend
  split_ifs
  · exact .next (.inl rfl)
  · exact (sendFrame_transmitted (countRetry s)).imp fun _ h => .inr h.sent

theorem timeoutRule_sends : Leads (SendsAtMostOne s.txq s.writeFate) (timeoutRule s) := by
  unfold timeoutRule
  split
  · exact timeoutOpen_sends s
  · exact timeoutClose_sends s
  · exact timeoutSend_sends s
  all_goals exact .next (.inl rfl)

theorem tick_sends : Leads (SendsAtMostOne s.txq s.writeFate) (tick s) := by
  unfold tick
  split_ifs
  · exact timeoutRule_sends (disarm s)
  · exact .next (.inl rfl)
  · exact .next (.inl rfl)

/-! ### The step -/

theorem eventRx_sends : Leads (SendsAtMostOne s.txq s.writeFate) (eventRx s) := by
  unfold eventRx
  split
  · exact .next (.inl rfl)
  split_ifs
  · exact .next (.inl rfl)
  unfold consume
  split
  · exact (rxByte_sends _ _).imp fun _ h => h.atMostOne
  · exact (rxByte_sends _ _).imp fun _ h => h.atMostOne

theorem eventFrame_sends : Leads (SendsAtMostOne s.txq s.writeFate) (eventFrame s) := by
  unfold eventFrame
  split
  · exact exec_sends _ _
  · exact eventRx_sends s
  · exact eventRx_sends s

theorem eventCmd_sends : Leads (SendsAtMostOne s.txq s.writeFate) (eventCmd s) := by
  unfold eventCmd
  split
  · exact .next (.inl rfl)
  split_ifs
  · exact exec_sends _ _
  · exact .next (.inl rfl)

theorem chErr_txq : (chErr s).txq = s.txq := by
  unfold chErr
  split_ifs <;> rfl

theorem runEvent_sends {e : Event} (he : ∀ n, e ≠ .drain n) : Leads (SendsAtMostOne s.txq s.writeFate) (runEvent e s) := by
  cases e with
  | cmd => exact eventCmd_sends s
  | rx => exact eventRx_sends s
  | frame => exact eventFrame_sends s
  | tick => exact tick_sends s
  | chErr => exact .next (.inl (chErr_txq s))
  | drain n => exact absurd rfl (he n)
  | reset | present _ | line _ | writeFate _ => exact .next (.inl rfl)

end

/-- Settles O38: each rule transmits once at most, and of a frame's bytes only one TERM can make the block transmit. -/
theorem onlyWholeFramesAreSent : Obligations.OnlyWholeFramesAreSent := by
  intro s t h hdrain
  cases ha : s.agenda with
  | nil =>
    rw [step_of_agenda_nil ha] at h
    exact .inl (Host.Outcome.next.inj h ▸ rfl)
  | cons e rest =>
    rw [step_of_agenda_cons ha] at h
    refine runEvent_sends { s with agenda := rest } (fun n hn => hdrain n ?_) t h
    rw [State.NextEvent, ha, hn, List.head?_cons]

end Sys2Proof.Machine
end

section
/-! PROOFS. The result an operation ends with (R69, R301 to R303). -/

namespace Sys2Proof.Machine

/-- If the operation has ended, its result is valid and one of these. -/
def EndsWith (rs : List Result) (t : State) : Prop := t.phase = .idle → t.resultValid = true ∧ t.result ∈ rs

theorem endsWith_of_running {rs : List Result} {t : State} (h : t.phase ≠ .idle) : EndsWith rs t := fun e => absurd e h

theorem endsWith_post {rs : List Result} {c : Result} (s : State) (h : c ∈ rs) : EndsWith rs (post c s) :=
  fun _ => ⟨rfl, h⟩

/-- A channel error can end every operation (R316). -/
theorem channelError_mem_resultsOf {p : Phase} (h : p ≠ .idle) : .channelError ∈ resultsOf p := by
  cases p with
  | idle => exact absurd rfl h
  | openIWaitUa | openRWaitSet | sendWaitReply | recv | closeIWaitDisc | closeRWaitDisc | closeRWaitUa => decide

/-- Every operation can end with Ok. -/
theorem ok_mem_resultsOf {p : Phase} (h : p ≠ .idle) : .ok ∈ resultsOf p := by
  cases p with
  | idle => exact absurd rfl h
  | openIWaitUa | openRWaitSet | sendWaitReply | recv | closeIWaitDisc | closeRWaitDisc | closeRWaitUa => decide

section
variable {s : State}

theorem endsWith_transmit {p : Phase} (hp : p ≠ .idle) {l : List Byte} {f : State → State}
    (hf : ∀ q, EndsWith (resultsOf p) (f { s with txq := q })) : EndsWith (resultsOf p) (transmit l f s) :=
  transmit_ind hf fun _ => endsWith_post _ (channelError_mem_resultsOf hp)

theorem sendFrame_endsWith {p : Phase} (hp : p ≠ .idle) : Leads (EndsWith (resultsOf p)) (sendFrame s) :=
  sendFrame_leads (fun _ => endsWith_of_running (by simp)) fun _ => endsWith_post _ (channelError_mem_resultsOf hp)

end

/-! ### A received byte -/

section
variable {b : Byte} {s : State} (hp : s.phase ≠ .idle)
include hp

theorem rxOpenIWaitUa_endsWith : Leads (EndsWith (resultsOf s.phase)) (rxOpenIWaitUa b s) := by
  unfold rxOpenIWaitUa
  split_ifs
  · exact .next (endsWith_post _ (ok_mem_resultsOf hp))
  · exact .next (endsWith_of_running hp)

theorem rxOpenRWaitSet_endsWith : Leads (EndsWith (resultsOf s.phase)) (rxOpenRWaitSet b s) := by
  unfold rxOpenRWaitSet
  split_ifs
  · exact .next (endsWith_transmit hp fun _ => endsWith_post _ (ok_mem_resultsOf hp))
  · exact .next (endsWith_of_running hp)

theorem rxCloseIWaitDisc_endsWith : Leads (EndsWith (resultsOf s.phase)) (rxCloseIWaitDisc b s) := by
  unfold rxCloseIWaitDisc
  split_ifs
  · exact .next (endsWith_transmit hp fun _ => endsWith_post _ (ok_mem_resultsOf hp))
  · exact .next (endsWith_of_running hp)

theorem rxCloseRWaitDisc_endsWith : Leads (EndsWith (resultsOf s.phase)) (rxCloseRWaitDisc b s) := by
  unfold rxCloseRWaitDisc
  split_ifs
  · exact .next (endsWith_transmit hp fun _ => endsWith_of_running (by simp))
  · exact .next (endsWith_of_running hp)

theorem rxCloseRWaitUa_endsWith : Leads (EndsWith (resultsOf s.phase)) (rxCloseRWaitUa b s) := by
  unfold rxCloseRWaitUa
  split_ifs
  · exact .next (endsWith_post _ (ok_mem_resultsOf hp))
  · exact .next (endsWith_of_running hp)

theorem rxSendWaitReply_endsWith : Leads (EndsWith (resultsOf s.phase)) (rxSendWaitReply b s) := by
  unfold rxSendWaitReply
  split_ifs
  · exact .next (endsWith_post _ (ok_mem_resultsOf hp))
  · exact sendFrame_endsWith hp
  · exact .next (endsWith_of_running hp)
  · exact .next (endsWith_of_running hp)

/-- RECEIVE ends with Ok where a frame is accepted, and goes on after every other one (R259 to R262). -/
theorem endOfFrame_endsWith : Leads (EndsWith (resultsOf s.phase)) (endOfFrame s) := by
  unfold endOfFrame
  split
  · exact .next (endsWith_of_running hp)
  split
  · split
    · split
      · exact .next (endsWith_transmit hp fun _ => endsWith_of_running hp)
      · exact .next (endsWith_transmit hp fun _ _ => ⟨rfl, ok_mem_resultsOf hp⟩)
    · exact .next (endsWith_transmit hp fun _ => endsWith_of_running hp)
  · exact .fault

theorem storeByte_endsWith (d : Byte) (e : Bool) :
    Leads (EndsWith (resultsOf s.phase)) (storeByte d { s with rxEsc := e }) := by
  unfold storeByte
  split
  · split
    · exact .next (endsWith_of_running hp)
    · exact .fault
  · exact .next (endsWith_of_running hp)

theorem rxBody_endsWith : Leads (EndsWith (resultsOf s.phase)) (rxBody b s) := by
  unfold rxBody
  split_ifs
  · exact .next (endsWith_of_running hp)
  · exact storeByte_endsWith hp _ _
  · exact endOfFrame_endsWith hp
  · exact .next (endsWith_of_running hp)
  · exact storeByte_endsWith hp b s.rxEsc

theorem rxRecv_endsWith : Leads (EndsWith (resultsOf s.phase)) (rxRecv b s) := by
  unfold rxRecv
  split
  case h_4 =>
    split_ifs
    · exact .next (endsWith_of_running hp)
    · exact .next (endsWith_of_running hp)
  case h_5 => exact rxBody_endsWith hp
  all_goals exact .next (endsWith_of_running hp)

/-- One received byte. -/
theorem rxByte_endsWith : Leads (EndsWith (resultsOf s.phase)) (rxByte b s) := by
  cases hq : s.phase with
  | idle => exact absurd hq hp
  | openIWaitUa => simpa only [rxByte, hq] using rxOpenIWaitUa_endsWith (b := b) hp
  | openRWaitSet => simpa only [rxByte, hq] using rxOpenRWaitSet_endsWith (b := b) hp
  | sendWaitReply => simpa only [rxByte, hq] using rxSendWaitReply_endsWith (b := b) hp
  | recv => simpa only [rxByte, hq] using rxRecv_endsWith (b := b) hp
  | closeIWaitDisc => simpa only [rxByte, hq] using rxCloseIWaitDisc_endsWith (b := b) hp
  | closeRWaitDisc => simpa only [rxByte, hq] using rxCloseRWaitDisc_endsWith (b := b) hp
  | closeRWaitUa => simpa only [rxByte, hq] using rxCloseRWaitUa_endsWith (b := b) hp

end

/-- An operation that goes on after a byte can end with the same results: CLOSE changes its phase, not its results. -/
theorem ByteEffect.resultsOf_eq {s t : State} (h : ByteEffect s t) (ht : t.phase ≠ .idle) :
    resultsOf t.phase = resultsOf s.phase := by
  rcases h.phase with e | e | ⟨e, e'⟩
  · rw [e]
  · exact absurd e ht
  · rw [e, e']; rfl

/-- The bytes of a frame: once the operation has ended the rest of them change nothing of the result. -/
theorem deliver_endsWith (l : List Byte) {s : State} (hp : s.phase ≠ .idle) :
    Leads (EndsWith (resultsOf s.phase)) (deliver l s) := by
  induction l generalizing s with
  | nil => exact .next (endsWith_of_running hp)
  | cons b r ih =>
    cases hb : rxByte b s with
    | next u =>
      rw [deliver_cons b r s u hp hb]
      by_cases hi : u.phase = .idle
      · rw [deliver_idle _ _ hi]
        exact .next (rxByte_endsWith hp u hb)
      · rw [← (rxByte_effect b s u hb).resultsOf_eq hi]
        exact ih hi
    | fault f => simp [Leads, deliver, hp, hb]
    | refused x => simp [Leads, deliver, hp, hb]

/-! ### The timer -/

section
variable {s : State}

theorem timeoutOpen_endsWith (hp : s.phase = .openIWaitUa) : Leads (EndsWith (resultsOf s.phase)) (timeoutOpen s) := by
  have hi : s.phase ≠ .idle := by simp [hp]
  unfold timeoutOpen
  split_ifs
  · exact .next (endsWith_post _ (by rw [hp]; decide))
  · exact .next (endsWith_transmit hi fun _ => endsWith_of_running hi)

theorem timeoutClose_endsWith (hp : s.phase = .closeIWaitDisc) : Leads (EndsWith (resultsOf s.phase)) (timeoutClose s) := by
  have hi : s.phase ≠ .idle := by simp [hp]
  unfold timeoutClose
  split_ifs
  · exact .next (endsWith_post _ (by rw [hp]; decide))
  · exact .next (endsWith_transmit hi fun _ => endsWith_of_running hi)

theorem timeoutSend_endsWith (hp : s.phase = .sendWaitReply) : Leads (EndsWith (resultsOf s.phase)) (timeoutSend s) := by
  unfold timeoutSend
  split_ifs
  · exact .next (endsWith_post _ (by rw [hp]; decide))
  · exact sendFrame_endsWith (by simp [hp])

/-- The expiry of a phase's timer ends the operation only where the retries are exhausted (R301, R302). -/
theorem timeoutRule_endsWith (hp : s.phase ≠ .idle) : Leads (EndsWith (resultsOf s.phase)) (timeoutRule s) := by
  unfold timeoutRule
  split
  case h_1 hq => exact timeoutOpen_endsWith hq
  case h_2 hq => exact timeoutClose_endsWith hq
  case h_3 hq => exact timeoutSend_endsWith hq
  all_goals exact .next (endsWith_of_running hp)

theorem tick_endsWith (hp : s.phase ≠ .idle) : Leads (EndsWith (resultsOf s.phase)) (tick s) := by
  unfold tick
  split_ifs
  · exact timeoutRule_endsWith (s := disarm s) hp
  · exact .next (endsWith_of_running hp)
  · exact .next (endsWith_of_running hp)

/-! ### The step -/

theorem eventRx_endsWith (hp : s.phase ≠ .idle) : Leads (EndsWith (resultsOf s.phase)) (eventRx s) := by
  unfold eventRx
  split
  · exact .next (endsWith_of_running hp)
  rw [if_neg hp, consume.eq_def]
  split
  · exact rxByte_endsWith hp
  · exact rxByte_endsWith hp

theorem eventFrame_endsWith (hp : s.phase ≠ .idle) : Leads (EndsWith (resultsOf s.phase)) (eventFrame s) := by
  unfold eventFrame
  split
  case h_1 p rest hc hf =>
    rw [exec_frame _ _ (isFrame_of_fetchFrame hf)]
    exact deliver_endsWith _ hp
  · exact eventRx_endsWith hp
  · exact eventRx_endsWith hp

theorem chErr_endsWith (hp : s.phase ≠ .idle) : EndsWith (resultsOf s.phase) (chErr s) := by
  rw [chErr, if_neg hp]
  exact endsWith_post _ (channelError_mem_resultsOf hp)

theorem runEvent_endsWith {e : Event} (he : e ≠ .reset) (hp : s.phase ≠ .idle) :
    Leads (EndsWith (resultsOf s.phase)) (runEvent e s) := by
  cases e with
  | reset => exact absurd rfl he
  | cmd =>
    rw [runEvent, eventCmd_of_running hp]
    exact .next (endsWith_of_running hp)
  | rx => exact eventRx_endsWith hp
  | frame => exact eventFrame_endsWith hp
  | tick => exact tick_endsWith hp
  | chErr => exact .next (chErr_endsWith hp)
  | present _ | line _ | drain _ | writeFate _ => exact .next (endsWith_of_running hp)

end

/-- Settles O43: every rule that ends an operation posts a result of its phase, and the invariant keeps RESULT_VALID at 0
while one runs. -/
theorem operationsEndWithAResultOfTheirs : Obligations.OperationsEndWithAResultOfTheirs := by
  intro s t hinv h hreset
  refine ⟨fun hp => ?_, (stepKeepsTheInvariant s t hinv h).control.resultInvalid⟩
  cases ha : s.agenda with
  | nil =>
    rw [step_of_agenda_nil ha] at h
    exact Leads.next (endsWith_of_running hp) t h
  | cons e rest =>
    rw [step_of_agenda_cons ha] at h
    refine runEvent_endsWith (s := { s with agenda := rest }) (fun he => hreset ?_) hp t h
    rw [State.NextEvent, ha, he, List.head?_cons]

end Sys2Proof.Machine
end

section
/-! PROOFS. A SEND at one end of a link and a RECEIVE at the other (R29, R71, R77): what each end's step does, and the run of
them. -/

namespace Sys2Proof.Machine

/-! ### RECEIVE and the frame it waits for -/

/-- RECEIVE on an open link starts scanning (R250). -/
theorem exec_receiveCmd_of_open {s : State} (hp : s.phase = .idle) (hc : s.connState = .opened) :
    exec .receiveCmd s = .next { s with resultValid := false, retryCount := 0, recState := .idle, phase := .recv } := by
  simp [exec, execReceive, hp, runReceive, State.isOpen, hc]

/-- The bytes of an I frame up to its closing TERM store the destuffed body (R253, R254); the TERM is the end of the frame. -/
theorem deliver_infoFrame (n : SeqBit) (d : List Byte) {s : State} (hp : s.phase = .recv)
    (hr : s.recState = .idle ∨ s.recState = .termSeen) (hm : s.cfgMaxPayload ≤ s.bufSize) :
    ∃ w, deliver ([TERM, ADDR, C_I n, bcc1 ADDR (C_I n)] ++ stuffList d ++ [TERM]) s = endOfFrame w ∧
      Stored d (enterBody { s with recState := .ctrlSeen, recCtrl := C_I n }) w := by
  have hi : s.phase ≠ .idle := by simp [hp]
  have hopen : rxByte TERM s = .next { s with recState := .termSeen } := by
    rw [rxByte_recvScan TERM s hp (hr.imp_right .inl)]
    rcases hr with hr | hr <;> simp [recStep, recNext, hr]
  have hbody : State.InBody (enterBody { s with recState := .ctrlSeen, recCtrl := C_I n }) :=
    ⟨hp, rfl, rfl, Nat.zero_le _, hm⟩
  obtain ⟨w, hw, hsw⟩ := deliver_stuffList d hbody
  obtain ⟨hwp, hwr, hwe, -, -⟩ := hsw.inBody hbody
  have hwi : w.phase ≠ .idle := by simp [hwp]
  refine ⟨w, ?_, hsw⟩
  simp only [List.cons_append, List.nil_append]
  rw [deliver_cons _ _ s _ hi hopen, deliver_infoHeader n _ (s := { s with recState := .termSeen }) hp rfl,
    deliver_append _ _ _ w hw hwi, deliver_one _ _ hwi]
  simp [rxByte, hwp, rxRecv, hwr, rxBody, hwe]

/-! ### A whole body that fits -/

section
variable {p : List Byte} {x : Byte} {s w : State} (h : Stored (p ++ [x]) s w) (h0 : s.rxLen = 0)
  (hl : p.length ≤ s.cfgMaxPayload)
include h h0 hl

theorem Stored.eq_of_fits : w = { s with
    rxBuf := w.rxBuf, rxLen := p.length + 1, rxOvf := s.rxOvf, rxXor := s.rxXor ^^^ xorFold (p ++ [x]) } := by
  have hlen : (p ++ [x]).length = p.length + 1 := by simp
  have e := h.eq
  rw [hlen, h0, Nat.zero_add, Nat.min_eq_left (by omega), decide_eq_false (by omega), Bool.or_false] at e
  exact e

theorem Stored.get_of_fits (j : Nat) :
    memGet w.rxBuf j = if j < p.length + 1 then (p ++ [x])[j]? else memGet s.rxBuf j := by
  have hlen : (p ++ [x]).length = p.length + 1 := by simp
  have e := h.get j
  rw [hlen, h0, Nat.zero_add, Nat.min_eq_left (by omega), Nat.sub_zero] at e
  simpa only [Nat.zero_le, true_and] using e

/-- RXBUF[0 .. RX_LEN-2] is the payload. -/
theorem Stored.rxBytes_payload (hm : s.cfgMaxPayload ≤ s.bufSize) : w.rxBytes p.length = some p := by
  have hb : w.bufSize = s.bufSize := by rw [h.eq]
  refine bufReadRun_eq_some _ _ _ p 0 (by omega) fun j hj => ?_
  rw [Nat.zero_add, h.get_of_fits h0 hl, if_pos (by omega), List.getElem?_append_left hj]

/-- RXBUF[RX_LEN-1] is the received BCC2. -/
theorem Stored.rxRead_bcc2 (hm : s.cfgMaxPayload ≤ s.bufSize) : w.rxRead p.length = some x := by
  have hb : w.bufSize = s.bufSize := by rw [h.eq]
  have hx : memGet w.rxBuf p.length = some x := by
    rw [h.get_of_fits h0 hl, if_pos (by omega), List.getElem?_append_right (by omega)]
    simp
  rw [State.rxRead, bufRead, if_pos (by omega), hx, Option.getD_some]

end

/-- An intact body of the expected bit that fits is accepted at its closing TERM (R259, R262). -/
theorem endOfFrame_accepts {p : List Byte} {s w : State} (h : Stored (p ++ [xorFold p]) s w) (h0 : s.rxLen = 0)
    (hl : p.length ≤ s.cfgMaxPayload) (hm : s.cfgMaxPayload ≤ s.bufSize) (ho : s.rxOvf = false)
    (hn : s.rxSeq = s.expectedSeq) : endOfFrame w = .next (acceptFrame w) := by
  have hw := h.eq_of_fits h0 hl
  have hlen : w.rxLen = p.length + 1 := by rw [hw]
  have hwell : w.bodyMalformed = false := by
    rw [State.bodyMalformed, hlen, show w.rxOvf = s.rxOvf by rw [hw], ho]
    simp
  have hnew : w.isDuplicate = false := by
    rw [State.isDuplicate, show w.rxSeq = s.rxSeq by rw [hw], show w.expectedSeq = s.expectedSeq by rw [hw]]
    simp [hn]
  simp [endOfFrame, hwell, hlen, h.rxBytes_payload h0 hl hm, h.rxRead_bcc2 h0 hl hm, bcc2Matches, hnew]

theorem encodeWire_infoInstr (n : SeqBit) (p : List Byte) : encodeWire (infoInstr n p) = encodeI ADDR (C_I n) p := by
  rcases seqBit_cases n with rfl | rfl <;> rfl

theorem isFrame_infoInstr (n : SeqBit) (p : List Byte) : (infoInstr n p).isFrame = true := by
  rcases seqBit_cases n with rfl | rfl <;> rfl

/-- R262 in full: the I frame with the expected bit, received while scanning. -/
theorem exec_infoInstr_accepted {n : SeqBit} {p : List Byte} {s : State} (hp : s.phase = .recv)
    (hr : s.recState = .idle ∨ s.recState = .termSeen) (hn : s.expectedSeq = n) (hl : p.length ≤ s.cfgMaxPayload)
    (hm : s.cfgMaxPayload ≤ s.bufSize) (hw : s.writeFate = none) :
    ∃ m : Memory,
      exec (infoInstr n p) s = .next { s with
        txq := s.txq ++ rrBytes n, expectedSeq := 1 - n, recState := .idle, recCtrl := C_I n, rxEsc := false,
        rxOvf := false, rxLen := p.length + 1, rxSeq := n, rxXor := 0x00, rxBuf := m, result := .ok,
        resultRetries := s.retryCount, resultLen := p.length, resultValid := true, timerArmed := false,
        phase := .idle } ∧
      ∀ i, memGet m i = if i < p.length + 1 then (p ++ [xorFold p])[i]? else memGet s.rxBuf i := by
  obtain ⟨w, hdeliver, hst⟩ := deliver_infoFrame n (p ++ [xorFold p]) hp hr hm
  have hbytes : encodeWire (infoInstr n p) =
      [TERM, ADDR, C_I n, bcc1 ADDR (C_I n)] ++ stuffList (p ++ [xorFold p]) ++ [TERM] := by
    simp [encodeWire_infoInstr, encodeI, stuffList_append_singleton]
  have hseq : seqOf (C_I n) = s.expectedSeq := by rw [seqOf_C_I, hn]
  have haccept := endOfFrame_accepts hst rfl hl hm rfl hseq
  have hfold : xorFold (p ++ [xorFold p]) = 0x00 := by simp [xorFold]
  have heq := hst.eq_of_fits rfl hl
  refine ⟨w.rxBuf, ?_, hst.get_of_fits rfl hl⟩
  rw [exec_frame _ _ (isFrame_infoInstr n p), hbytes, hdeliver, haccept, acceptFrame,
    transmit_none _ _ _ (by rw [heq]; exact hw), heq, hfold]
  subst hn
  simp [post, enterBody, flipSeq]

/-- The delivered payload is what RXBUF holds in its first RESULT_LEN bytes (R70). -/
theorem delivered_eq_some {p : List Byte} {s : State} (hv : s.resultValid = true) (hr : s.result = .ok)
    (hlen : s.resultLen = p.length) (hfits : p.length ≤ s.bufSize) (hg : ∀ j, j < p.length → memGet s.rxBuf j = p[j]?) :
    s.delivered = some p := by
  have hrun : s.rxBytes p.length = some p :=
    bufReadRun_eq_some _ _ _ p 0 (by omega) fun j hj => by rw [Nat.zero_add, hg j hj]
  simp [State.delivered, hv, hr, hlen, hrun]

/-! ### SEND and its reply -/

/-- An accepted SEND puts its frame on the line and waits for the reply (R220, R221). -/
theorem exec_sendCmd_of_open {data : List Byte} {s : State} (hp : s.phase = .idle) (hc : s.connState = .opened)
    (hl : data.length ≤ s.cfgMaxPayload) (hm : s.cfgMaxPayload ≤ s.bufSize) (hw : s.writeFate = none) :
    ∃ m : Memory,
      exec (.sendCmd data) s = .next { s with
        resultValid := false, txBuf := m, txLen := data.length, retryCount := 0,
        txq := s.txq ++ encodeI ADDR (C_I s.nextSeq) data, timerArmed := true, timerRemaining := s.cfgTimeout,
        recState := .idle, phase := .sendWaitReply } ∧
      ∀ i, memGet m i = if i < data.length then data[i]? else memGet s.txBuf i := by
  obtain ⟨m, hrun, hget, -, -⟩ := bufWriteRun_spec s.bufSize data s.txBuf 0 (by omega)
  simp only [Nat.zero_le, true_and, Nat.zero_add, Nat.sub_zero] at hget
  have hpay : bufReadRun s.bufSize (Config.unwrittenTx s.draws) m 0 data.length = some data :=
    bufReadRun_eq_some _ _ _ data 0 (by omega) fun j hj => by rw [Nat.zero_add, hget, if_pos hj]
  refine ⟨m, ?_, hget⟩
  simp [exec, execSend, hp, runSend, State.sendAllowed, hc, hl, hrun, sendFrame, State.txPayload, hpay, transmit, hw,
    inFlight, arm]

theorem encodeWire_rrInstr (n : SeqBit) : encodeWire (rrInstr n) = rrBytes n := by
  rcases seqBit_cases n with rfl | rfl <;> rfl

theorem isFrame_rrInstr (n : SeqBit) : (rrInstr n).isFrame = true := by
  rcases seqBit_cases n with rfl | rfl <;> rfl

/-- R224 in full: RR with NEXT_SEQ's bit, received while scanning. -/
theorem exec_rrInstr_ends_send {n : SeqBit} {s : State} (hp : s.phase = .sendWaitReply) (hn : s.nextSeq = n)
    (hr : s.recState = .idle ∨ s.recState = .termSeen) :
    exec (rrInstr n) s = .next { s with
      recState := .idle, recCtrl := C_RR n, nextSeq := 1 - n, result := .ok, resultRetries := s.retryCount,
      resultLen := 0, resultValid := true, timerArmed := false, phase := .idle } := by
  subst hn
  have hkey : C_RR (ackBit s.nextSeq) ∈ keyOf s.phase s.nextSeq := by simp [keyOf, hp, keyReply]
  rw [exec_frame _ _ (isFrame_rrInstr _), encodeWire_rrInstr, rrBytes,
    deliver_awaited _ s (by simp [hp]) (by simp [hp]) hkey hr]
  simp [rxByte, hp, rxSendWaitReply, recNext, ackMatched, post, disarm, recStep, flipSeq, ackBit]

/-! ### The steps of the two ends -/

section
variable {s : State} {rest : List Event}

/-- The step of an idle end that takes the command at its port. -/
theorem step_of_cmd {r : CmdRecord} {q : List CmdRecord} (hp : s.phase = .idle) (ha : s.agenda = .cmd :: rest)
    (hq : s.port = r :: q) : step s = exec (decodeCommand r) { s with agenda := rest, port := q } := by
  rw [step_of_agenda_cons ha]
  exact eventCmd_of_port hp hq

/-- The step that takes the frame at the front of RXQ. -/
theorem step_of_frame {i : Instr} {q : List Byte} (hi : i.isFrame = true) (ha : s.agenda = .frame :: rest)
    (hc : s.testChannel = none) (hq : s.rxq = encodeWire i ++ q) :
    step s = exec i { s with agenda := rest, rxq := q } := by
  rw [step_of_agenda_cons ha]
  exact eventFrame_of_rxq hi hc hq

theorem step_receive {q : List CmdRecord} (hp : s.phase = .idle) (hc : s.connState = .opened)
    (ha : s.agenda = .cmd :: rest) (hq : s.port = receiveRecord :: q) :
    step s = .next { s with
      agenda := rest, port := q, resultValid := false, retryCount := 0, recState := .idle, phase := .recv } := by
  rw [step_of_cmd hp ha hq]
  exact exec_receiveCmd_of_open (s := { s with agenda := rest, port := q }) hp hc

/-- The sender's end after its SEND: the frame is on the line, and the end scans for the reply. -/
theorem step_send {p : List Byte} {q : List CmdRecord} (hp : s.phase = .idle) (hc : s.connState = .opened)
    (hl : p.length ≤ s.cfgMaxPayload) (hm : s.cfgMaxPayload ≤ s.bufSize) (hw : s.writeFate = none)
    (ha : s.agenda = .cmd :: rest) (hq : s.port = sendRecord p :: q) :
    ∃ t, step s = .next t ∧ t.txq = s.txq ++ encodeI ADDR (C_I s.nextSeq) p ∧ t.phase = .sendWaitReply ∧
      t.recState = .idle ∧ t.nextSeq = s.nextSeq ∧ t.retryCount = 0 ∧ t.rxq = s.rxq ∧ t.testChannel = s.testChannel ∧
      t.agenda = rest := by
  obtain ⟨m, h, -⟩ := exec_sendCmd_of_open (data := p) (s := { s with agenda := rest, port := q }) hp hc hl hm hw
  rw [step_of_cmd hp ha hq]
  exact ⟨_, h, rfl, rfl, rfl, rfl, rfl, rfl, rfl, rfl⟩

/-- The receiver's end after the frame it expects: the payload is delivered and the reply is on the line. -/
theorem step_accept {p q : List Byte} (hp : s.phase = .recv) (hr : s.recState = .idle) (hl : p.length ≤ s.cfgMaxPayload)
    (hm : s.cfgMaxPayload ≤ s.bufSize) (hw : s.writeFate = none) (hc : s.testChannel = none)
    (ha : s.agenda = .frame :: rest) (hq : s.rxq = encodeI ADDR (C_I s.expectedSeq) p ++ q) :
    ∃ t, step s = .next t ∧ t.delivered = some p ∧ t.phase = .idle ∧ t.expectedSeq = 1 - s.expectedSeq ∧
      t.txq = s.txq ++ rrBytes s.expectedSeq ∧ t.rxq = q := by
  obtain ⟨m, h, hget⟩ :=
    exec_infoInstr_accepted (p := p) (s := { s with agenda := rest, rxq := q }) hp (.inl hr) rfl hl hm hw
  rw [step_of_frame (isFrame_infoInstr s.expectedSeq p) ha hc (by rw [hq, encodeWire_infoInstr])]
  refine ⟨_, h, delivered_eq_some rfl rfl rfl (hl.trans hm) fun j hj => ?_, rfl, rfl, rfl, rfl⟩
  exact (hget j).trans (by rw [if_pos (by omega), List.getElem?_append_left hj])

/-- The sender's end after the RR of its frame. -/
theorem step_acked {q : List Byte} (hp : s.phase = .sendWaitReply) (hr : s.recState = .idle) (hc : s.testChannel = none)
    (ha : s.agenda = .frame :: rest) (hq : s.rxq = rrBytes s.nextSeq ++ q) :
    step s = .next { s with
      agenda := rest, rxq := q, recState := .idle, recCtrl := C_RR s.nextSeq, nextSeq := 1 - s.nextSeq, result := .ok,
      resultRetries := s.retryCount, resultLen := 0, resultValid := true, timerArmed := false, phase := .idle } := by
  rw [step_of_frame (isFrame_rrInstr s.nextSeq) ha hc (by rw [hq, encodeWire_rrInstr])]
  exact exec_rrInstr_ends_send (s := { s with agenda := rest, rxq := q }) hp rfl (.inl hr)

end

/-! ### The moves of the link -/

theorem linkRun_cons {m : LinkMove} {r : List LinkMove} {l l' : Link} (h : linkMove m l = some l') :
    linkRun (m :: r) l = linkRun r l' := by
  simp [linkRun, h]

theorem linkMove_runA {a b t : State} (h : step a = .next t) : linkMove .runA ⟨a, b⟩ = some ⟨t, b⟩ := by
  simp [linkMove, stepEnd, h]

theorem linkMove_runB {a b t : State} (h : step b = .next t) : linkMove .runB ⟨a, b⟩ = some ⟨a, t⟩ := by
  simp [linkMove, stepEnd, h]

/-- The channel carries everything one end has sent to the other, whose RXQ is empty. -/
theorem linkMove_carryAtoB {a b : State} {w : List Byte} (ha : a.txq = w) (hb : b.rxq = []) :
    linkMove (.carryAtoB w.length) ⟨a, b⟩ = some ⟨{ a with txq := [] }, { b with rxq := w }⟩ := by
  simp [linkMove, takeSent, arrive, ha, hb]

theorem linkMove_carryBtoA {a b : State} {w : List Byte} (hb : b.txq = w) (ha : a.rxq = []) :
    linkMove (.carryBtoA w.length) ⟨a, b⟩ = some ⟨{ a with rxq := w }, { b with txq := [] }⟩ := by
  simp [linkMove, takeSent, arrive, ha, hb]

/-- Settles O54: the receiver's end starts, the sender's frame is accepted there, and its RR ends the SEND. -/
theorem linkMovesThePayloadOnce : Obligations.LinkMovesThePayloadOnce := by
  rintro ⟨a, b⟩ p hap hbp hac hbc hseq hal hbl ham hbm haw hbw hat hbt haq hbq har hbr haport hbport haa hba
  dsimp only at *
  have hreceive := step_receive hbp hbc hba hbport
  obtain ⟨a1, hsend, hq1, hp1, hr1, hn1, hc1, hrx1, ht1, hag1⟩ := step_send hap hac hal ham haw haa haport
  rw [haq, List.nil_append] at hq1
  obtain ⟨b2, haccept, hdel, hp2, he2, hq2, hrx2⟩ := step_accept (p := p) (q := []) (rest := [])
    (s := { b with
      agenda := [.frame], port := [], resultValid := false, retryCount := 0, recState := .idle, phase := .recv,
      rxq := encodeI ADDR (C_I a.nextSeq) p })
    rfl rfl hbl hbm hbw hbt rfl (by rw [List.append_nil, hseq])
  have hreply : b2.txq = rrBytes a1.nextSeq := by rw [hq2, hbq, hn1, hseq, List.nil_append]
  have hacked := step_acked (q := []) (rest := []) (s := { a1 with txq := [], rxq := rrBytes a1.nextSeq }) hp1 hr1
    (ht1.trans hat) hag1 (List.append_nil _).symm
  have hrun := (linkRun_cons (linkMove_runB hreceive)).trans <| (linkRun_cons (linkMove_runA hsend)).trans <|
    (linkRun_cons (linkMove_carryAtoB hq1 (by exact hbr))).trans <| (linkRun_cons (linkMove_runB haccept)).trans <|
    (linkRun_cons (linkMove_carryBtoA hreply (by exact hrx1.trans har))).trans <| linkRun_cons (r := []) (linkMove_runA hacked)
  refine ⟨_, hrun, hdel, hp2, rfl, rfl, rfl, hc1, congrArg (1 - ·) hn1, ?_, rfl, rfl, rfl, hrx2⟩
  exact (congrArg (1 - ·) (hn1.trans hseq)).trans he2.symm

end Sys2Proof.Machine
end

section
/-! PROOFS. The encodings of spec/30: the nine frames and the four command codes of the opcode table, the layout and length of a
frame, and the refusal of reserved control bytes (R91, R92, R98 to R102, R126, R127). -/

namespace Sys2Proof

/-! ### The opcode table (R98, R101) -/

/-- Written-out bytes that are a frame's encoding decode to that frame. -/
theorem decode_wire_of_eq_encodeWire {w : List Byte} {i : Instr} (hi : i.isFrame = true) (hw : w = encodeWire i) :
    decode (.wire w) = .ok i := by
  have h := decodeStream_encodeWire_append i [] hi
  rw [List.append_nil, ← hw] at h
  exact decode_wire_of_decodeStream h

/-- Settles O1: each written-out frame is its instruction's encoding, and decoding inverts that. -/
theorem wireWordsDecodeToTheirInstructions : Obligations.WireWordsDecodeToTheirInstructions := by
  refine ⟨⟨?_, ?_, decode_wire_of_eq_encodeWire rfl ?_⟩, ⟨?_, ?_, decode_wire_of_eq_encodeWire rfl ?_⟩,
    ⟨?_, ?_, decode_wire_of_eq_encodeWire rfl ?_⟩, ⟨?_, ?_, decode_wire_of_eq_encodeWire rfl ?_⟩,
    ⟨?_, ?_, decode_wire_of_eq_encodeWire rfl ?_⟩, ⟨?_, ?_, decode_wire_of_eq_encodeWire rfl ?_⟩,
    ⟨?_, ?_, decode_wire_of_eq_encodeWire rfl ?_⟩, ⟨?_, ?_, decode_wire_of_eq_encodeWire rfl ?_⟩,
    ⟨?_, ?_, decode_wire_of_eq_encodeWire rfl ?_⟩⟩
  all_goals decide

/-- Settles O2: the decoder of records looks at the code alone to choose the command. -/
theorem commandCodesDecodeToTheirCommands : Obligations.CommandCodesDecodeToTheirCommands :=
  fun _ _ => ⟨decode_command _, decode_command _, decode_command _, decode_command _⟩

/-! ### Layout and length (R91, R92, R102) -/

theorem stuff_length_bounds (b : Byte) : 1 ≤ (stuff b).length ∧ (stuff b).length ≤ 2 := by
  unfold stuff
  split_ifs <;> simp

/-- Stuffing at most doubles a list and never shortens it (R120). -/
theorem stuffList_length_bounds (l : List Byte) :
    l.length ≤ (stuffList l).length ∧ (stuffList l).length ≤ 2 * l.length := by
  induction l with
  | nil => simp [stuffList]
  | cons b r ih =>
    have hb := stuff_length_bounds b
    simp only [stuffList, List.length_append, List.length_cons]
    omega

/-- The body of an I frame is the stuffed payload with its BCC2 (R92, R125). -/
theorem encodeI_eq (a c : Byte) (p : List Byte) :
    encodeI a c p = [TERM, a, c, bcc1 a c] ++ stuffList (p ++ [xorFold p]) ++ [TERM] := by
  simp [encodeI, Machine.stuffList_append_singleton]

end Sys2Proof

namespace Sys2Proof.Machine

theorem isFrame_of_controlOf {i : Instr} {c : Byte} (hc : controlOf i = some c) : i.isFrame = true := by
  cases i with
  | openCmd _ | sendCmd _ | receiveCmd | closeCmd => simp [controlOf] at hc
  | _ => rfl

theorem encodeWire_of_infoPayload_none {i : Instr} {c : Byte} (hc : controlOf i = some c) (hp : infoPayload i = none) :
    encodeWire i = encodeS ADDR c := by
  cases i with
  | setFrame | uaFrame | discFrame | rr0Frame | rr1Frame | rej0Frame | rej1Frame =>
    obtain rfl := Option.some.inj hc
    rfl
  | i0Frame _ | i1Frame _ => simp [infoPayload] at hp
  | openCmd _ | sendCmd _ | receiveCmd | closeCmd => simp [controlOf] at hc

theorem encodeWire_of_infoPayload_some {i : Instr} {c : Byte} {p : List Byte} (hc : controlOf i = some c)
    (hp : infoPayload i = some p) : encodeWire i = encodeI ADDR c p := by
  cases i with
  | i0Frame _ | i1Frame _ =>
    obtain rfl := Option.some.inj hc
    obtain rfl := Option.some.inj hp
    rfl
  | setFrame | uaFrame | discFrame | rr0Frame | rr1Frame | rej0Frame | rej1Frame | openCmd _ | sendCmd _ | receiveCmd
  | closeCmd => simp [infoPayload] at hp

/-- Settles O6: the layouts are those of the two encoders, and stuffing bounds the length of an I frame's body. -/
theorem frameLayoutAndLength : Obligations.FrameLayoutAndLength := by
  refine ⟨fun i c hc hp => encodeWire_of_infoPayload_none hc hp, fun i c p hc hp => ?_⟩
  have hframe := (encodeWire_of_infoPayload_some hc hp).trans (encodeI_eq ADDR c p)
  obtain ⟨hlow, hhigh⟩ := stuffList_length_bounds (p ++ [xorFold p])
  refine ⟨_, hframe, rfl, term_not_mem_stuffList _, ?_⟩
  simp only [hframe, List.length_append, List.length_cons, List.length_nil] at hlow hhigh ⊢
  omega

end Sys2Proof.Machine

/-! ### Reserved control bytes (R99, R126, R127) -/

namespace Sys2Proof

/-- Kind is defined on the nine control bytes of the table alone (R98). -/
theorem kind_eq_none_iff (c : Byte) :
    kind c = none ↔ c ∉ ([0x03, 0x07, 0x0B, 0x00, 0x80, 0x05, 0x85, 0x01, 0x81] : List Byte) := by
  simp only [List.mem_cons, List.not_mem_nil, or_false, not_or]
  unfold kind
  split_ifs <;> simp_all

/-- Once its BCC1 is right, a frame with a reserved control byte is a framing error, whatever follows (R127). -/
theorem decodeFrame_of_reserved {a c : Byte} (r : List Byte) (ha : a ≠ TERM) (hk : kind c = none) :
    decodeFrame (TERM :: a :: c :: bcc1 a c :: r) = .error .framingError := by
  simp [decodeFrame_cons _ _ _ _ ha, hk]

theorem encodeCall_of_reserved {c : Byte} (a : Byte) (p : Option (List Byte)) (hk : kind c = none) :
    encodeCall a c p = none := by
  simp [encodeCall, hk]

/-- Settles O7: the decoder's verdict comes before the body is looked at, and Kind is a table of nine rows. -/
theorem reservedControlBytesAreRefused : Obligations.ReservedControlBytesAreRefused := by
  refine ⟨fun c r hk => ?_, kind_eq_none_iff⟩
  have hframe := decodeFrame_of_reserved (a := ADDR) r (by decide) hk
  exact ⟨by simp [decodeBytes, hframe], by simp [decode, decodeStream, hframe], fun p => encodeCall_of_reserved ADDR p hk⟩

end Sys2Proof
end

section
/-! PROOFS. A frame that is not awaited, or that finds the recognizer part-way through a header, is ignored (R100, R160 (b), R223,
R263). -/

namespace Sys2Proof.Machine

/-! ### The header in every phase -/

section
variable {s : State} (hi : s.phase ≠ .idle)
include hi

/-- Before the control byte is held, a byte is the recognizer's step in every phase, P_RECV included (R151, R251). -/
theorem rxByte_header (b : Byte) (hs : s.recState = .idle ∨ s.recState = .termSeen ∨ s.recState = .addrSeen) :
    rxByte b s = .next (recStep (keyOf s.phase s.nextSeq) b s) := by
  by_cases hr : s.phase = .recv
  · rw [rxByte_recvScan b s hr hs, hr]
    rfl
  · refine rxByte_scan b s hi hr fun hd => ?_
    obtain ⟨-, -, hdone, -⟩ := recNext_facts (keyOf s.phase s.nextSeq) b s.recState s.recCtrl
      fun h => by rcases h with h | h <;> simp [h] at hs
    obtain ⟨hbcc, -, -⟩ := hdone hd
    simp [hbcc] at hs

theorem rxByte_term_opens (hs : s.recState = .idle ∨ s.recState = .termSeen) :
    rxByte TERM s = .next { s with recState := .termSeen } := by
  rw [rxByte_header hi TERM (hs.imp_right .inl)]
  rcases hs with h | h <;> simp [recStep, recNext, h]

theorem rxByte_address_of_termSeen (hs : s.recState = .termSeen) : rxByte ADDR s = .next { s with recState := .addrSeen } := by
  have ha : ADDR ≠ TERM := by decide
  rw [rxByte_header hi ADDR (.inr (.inl hs))]
  simp [recStep, recNext, hs, ha]

/-- A control byte that is not awaited ends the header; REC_CTRL keeps its value (R154). -/
theorem rxByte_control_not_awaited {c : Byte} (hs : s.recState = .addrSeen) (hc : c ∉ keyOf s.phase s.nextSeq) :
    rxByte c s = .next { s with recState := .idle } := by
  rw [rxByte_header hi c (.inr (.inr hs))]
  simp [recStep, recNext, hs, hc]

/-- In CtrlSeen a byte that is not the awaited BCC1 ends the header, in every phase (R155). -/
theorem rxByte_wrong_bcc1 {b : Byte} (hs : s.recState = .ctrlSeen) (hb : b ≠ bcc1 ADDR s.recCtrl) :
    rxByte b s = .next { s with recState := .idle } := by
  by_cases hr : s.phase = .recv
  · simp [rxByte, hr, rxRecv, hs, hb]
  · rw [rxByte_scan b s hi hr (by simp [recNext, hs, hb])]
    simp [recStep, recNext, hs, hb]

/-! ### The two ways a frame is missed -/

/-- A frame whose control byte is not in the key is scanned to its address and skipped from there to its closing TERM. -/
theorem deliver_not_awaited {c : Byte} {l : List Byte} (hs : s.recState = .idle ∨ s.recState = .termSeen)
    (hc : c ∉ keyOf s.phase s.nextSeq) (hl : TERM ∉ l) :
    deliver (TERM :: ADDR :: c :: (l ++ [TERM])) s = .next { s with recState := .termSeen } := by
  rw [deliver_cons _ _ s _ hi (rxByte_term_opens hi hs),
    deliver_cons _ _ { s with recState := .termSeen } _ hi
      (rxByte_address_of_termSeen (s := { s with recState := .termSeen }) hi rfl),
    deliver_cons _ _ { s with recState := .addrSeen } _ hi
      (rxByte_control_not_awaited (s := { s with recState := .addrSeen }) hi rfl hc)]
  exact deliver_skip_to_term (s := { s with recState := .idle }) hi rfl hl

/-- A TERM part-way through a header is taken for a wrong byte (R160 (b)): no key holds it, nor the BCC1 of one. -/
theorem rxByte_term_mid_header (h : s.Inv) (hs : s.recState = .addrSeen ∨ s.recState = .ctrlSeen) :
    rxByte TERM s = .next { s with recState := .idle } := by
  rcases hs with hs | hs
  · exact rxByte_control_not_awaited hi hs (term_not_mem_keyOf _ _)
  · exact rxByte_wrong_bcc1 hi hs (bcc1_ne_term_of_mem_keyOf _ _ _ (h.control.ctrlInKey (.inl hs))).symm

theorem deliver_mid_header (h : s.Inv) (hs : s.recState = .addrSeen ∨ s.recState = .ctrlSeen) {l : List Byte}
    (hl : TERM ∉ l) : deliver (TERM :: (l ++ [TERM])) s = .next { s with recState := .termSeen } := by
  rw [deliver_cons _ _ s _ hi (rxByte_term_mid_header hi h hs)]
  exact deliver_skip_to_term (s := { s with recState := .idle }) hi rfl hl

end

/-- The header of a frame, then bytes without TERM, then TERM (R91, R92). -/
theorem encodeWire_header {i : Instr} {c : Byte} (hc : controlOf i = some c) :
    ∃ l, encodeWire i = TERM :: ADDR :: c :: (l ++ [TERM]) ∧ TERM ∉ ADDR :: c :: l := by
  obtain ⟨inner, hw, ht⟩ := encodeWire_delimited (isFrame_of_controlOf hc)
  have hheader : ∃ l, encodeWire i = TERM :: (ADDR :: c :: l ++ [TERM]) := by
    cases hp : infoPayload i with
    | none => exact ⟨[bcc1 ADDR c], encodeWire_of_infoPayload_none hc hp⟩
    | some p =>
      exact ⟨bcc1 ADDR c :: stuffList (p ++ [xorFold p]), (encodeWire_of_infoPayload_some hc hp).trans (encodeI_eq ADDR c p)⟩
  obtain ⟨l, hl⟩ := hheader
  obtain rfl := List.append_cancel_right (List.tail_eq_of_cons_eq (hw.symm.trans hl))
  exact ⟨l, hl, ht⟩

/-- Settles O22: the frame is lost at its control byte or at its opening TERM, and skipped up to its closing TERM. -/
theorem framesNotAwaitedAreIgnored : Obligations.FramesNotAwaitedAreIgnored := by
  intro i c s h hi hc hs
  obtain ⟨l, hw, hl⟩ := encodeWire_header hc
  rw [exec_frame i s (isFrame_of_controlOf hc), hw]
  rcases hs with ⟨hkey, hscan⟩ | hmid
  · exact deliver_not_awaited hi hscan hkey fun hm => hl (List.mem_cons_of_mem _ (List.mem_cons_of_mem _ hm))
  · exact deliver_mid_header hi h hmid hl

end Sys2Proof.Machine
end

section
/-! PROOFS. The frame codec of spec/40: what stuffing leaves of TERM and ESC, decoding inverts encoding for every instruction and
every answered encoder call, and what a fold tells of inverted bits (R120 to R132). -/

namespace Sys2Proof

/-! ### Every instruction survives encoding and decoding (R101, R128) -/

theorem decode_encode (i : Instr) : decode (encode i) = .ok i := by
  cases i with
  | setFrame | uaFrame | discFrame | i0Frame _ | i1Frame _ | rr0Frame | rr1Frame | rej0Frame | rej1Frame =>
    exact decode_wire_of_eq_encodeWire rfl rfl
  | openCmd _ | sendCmd _ | receiveCmd | closeCmd => exact decode_command _

/-- Settles O5: a frame decodes at the front of any stream, a command by the code of its record; no bound on an operand is
needed, for the encodings carry operands of any size. -/
theorem decodeOfEncodeIsTheInstruction : Obligations.DecodeOfEncodeIsTheInstruction :=
  ⟨fun i _ => decode_encode i, fun i rest hi _ => decodeStream_encodeWire_append i rest hi⟩

/-! ### Stuffing (R120) -/

@[simp] theorem stuff_term : stuff TERM = [ESC, 0x5E] := by decide
@[simp] theorem stuff_esc : stuff ESC = [ESC, 0x5D] := by decide

theorem stuff_of_ne {b : Byte} (ht : b ≠ TERM) (he : b ≠ ESC) : stuff b = [b] := by
  simp [stuff, ht, he]

theorem stuffList_singleton (b : Byte) : stuffList [b] = stuff b := by
  simp [stuffList]

theorem stuffList_append (l m : List Byte) : stuffList (l ++ m) = stuffList l ++ stuffList m := by
  induction l with
  | nil => rfl
  | cons b l ih => rw [List.cons_append, stuffList, ih, stuffList, List.append_assoc]

/-- An ESC in a stuffed byte is the first of two, and no other byte follows it. -/
theorem stuff_eq_append_esc {b : Byte} {u v : List Byte} (h : stuff b = u ++ ESC :: v) : v = [0x5E] ∨ v = [0x5D] := by
  have hpair : ∀ x : Byte, x ≠ ESC → [ESC, x] = u ++ ESC :: v → v = [x] := by
    intro x hx h
    rcases u with _ | ⟨y, _ | ⟨z, u⟩⟩ <;> simp_all
  by_cases ht : b = TERM
  · exact .inl (hpair 0x5E (by decide) (by rwa [ht, stuff_term] at h))
  by_cases he : b = ESC
  · exact .inr (hpair 0x5D (by decide) (by rwa [he, stuff_esc] at h))
  · have hmem : ESC ∈ stuff b := by simp [h]
    rw [stuff_of_ne ht he, List.mem_singleton] at hmem
    exact absurd hmem.symm he

/-- An ESC in a stuffed list lies in one stuffed byte, and so does the byte after it (R120). -/
theorem stuffList_eq_append_esc {l u v : List Byte} (h : stuffList l = u ++ ESC :: v) :
    v.head? = some 0x5E ∨ v.head? = some 0x5D := by
  induction l generalizing u with
  | nil => simp [stuffList] at h
  | cons b r ih =>
    rcases List.append_eq_append_iff.1 h with ⟨u', -, hr⟩ | ⟨t, hb, ht⟩
    · exact ih hr
    · cases t with
      | nil => exact ih (u := []) ht.symm
      | cons x t =>
        obtain ⟨rfl, rfl⟩ := List.cons.inj ht
        rcases stuff_eq_append_esc hb with rfl | rfl <;> simp

/-- Settles O3, byte by byte: the last clause by where the ESC stands among the stuffed bytes. -/
theorem stuffedBytesHideTheTerminator : Obligations.StuffedBytesHideTheTerminator :=
  ⟨stuff_term, stuff_esc, fun _ => stuff_of_ne, stuffList_append, stuffList_singleton,
    fun l => ⟨term_not_mem_stuffList l, stuffList_length_bounds l⟩, fun _ _ _ => stuffList_eq_append_esc⟩

/-! ### Decoding an answered encoder call (R126 to R128) -/

theorem destuffList_stuffList (l : List Byte) : destuffList (stuffList l) = .ok l := by
  simpa using destuffList_stuffList_append l (r := []) rfl

/-- The I control bytes are those of the I kinds (R98, R129). -/
theorem isI_iff_kind (c : Byte) : isI c = true ↔ ∃ s, kind c = some (.info s) := by
  constructor
  · intro hc
    obtain ⟨s, rfl⟩ := (isI_iff c).1 hc
    exact ⟨s, by revert s; decide⟩
  · rintro ⟨s, hk⟩
    unfold kind at hk
    split_ifs at hk <;> simp_all [isI]

/-- An answered encoder call is for ADDR and one of the nine kinds, with a payload exactly for an I kind (R126). -/
theorem encodeCall_eq_some {a c : Byte} {p : Option (List Byte)} {w : List Byte} (h : encodeCall a c p = some w) :
    a = ADDR ∧ ((isI c = true ∧ ∃ q, p = some q ∧ w = encodeI a c q) ∨
      (isI c = false ∧ kind c ≠ none ∧ p = none ∧ w = encodeS a c)) := by
  unfold encodeCall at h
  split_ifs at h with ha
  refine ⟨ha, ?_⟩
  split at h
  next s q hk => exact .inl ⟨(isI_iff_kind c).2 ⟨s, hk⟩, q, rfl, (Option.some.inj h).symm⟩
  next => cases h
  next k hinfo hk =>
    have hi : isI c = false := Bool.eq_false_iff.2 fun hc => by
      obtain ⟨s, hs⟩ := (isI_iff_kind c).1 hc
      exact hinfo s (Option.some.inj (hk.symm.trans hs))
    exact .inr ⟨hi, by simp [hk], rfl, (Option.some.inj h).symm⟩
  next => cases h
  next => cases h

theorem decodeBytes_of_decodeFrame {w rest : List Byte} {f : Frame} (h : decodeFrame w = .ok (f, rest)) :
    decodeBytes w = .ok f := by
  simp [decodeBytes, h]

theorem decodeBytes_of_encodeCall {a c : Byte} {p : Option (List Byte)} {w : List Byte} (h : encodeCall a c p = some w) :
    decodeBytes w = .ok ⟨a, c, p⟩ := by
  obtain ⟨rfl, ⟨hi, q, rfl, rfl⟩ | ⟨hi, hk, rfl, rfl⟩⟩ := encodeCall_eq_some h
  · have hf := decodeFrame_encodeI_append q [] (a := ADDR) (by decide) hi
    exact decodeBytes_of_decodeFrame (by rwa [List.append_nil] at hf)
  · have hf := decodeFrame_encodeS_append [] (a := ADDR) (by decide) hk hi
    exact decodeBytes_of_decodeFrame (by rwa [List.append_nil] at hf)

/-- Settles O4. The converse fails on an ESC before a byte that needs none: 7D 41 destuffs to 61, which is stuffed as itself. -/
theorem destuffingInvertsStuffing : Obligations.DestuffingInvertsStuffing := by
  refine ⟨fun b => ?_, destuffList_stuffList, fun _ _ _ _ => decodeBytes_of_encodeCall, ?_⟩
  · rw [← stuffList_singleton, destuffList_stuffList]
  · exact ⟨[ESC, 0x41], [0x61], by decide, by decide, by decide⟩

end Sys2Proof

namespace Sys2Proof.Machine

/-! ### Checksums and inverted bits (R122, R123, R132) -/

theorem flipBit_ne (b : Byte) {j : Nat} (hj : j < 8) : flipBit b j ≠ b := by
  intro h
  have hbit : (flipBit b j)[j] = b[j] := by rw [h]
  simp [flipBit] at hbit

theorem flipBit_flipBit (b : Byte) (j : Nat) : flipBit (flipBit b j) j = b := by
  rw [flipBit, flipBit, BitVec.xor_assoc, BitVec.xor_self, BitVec.xor_zero]

theorem bcc1_flipBit_address (a c : Byte) (j : Nat) : bcc1 (flipBit a j) c = flipBit (bcc1 a c) j := by
  simp only [bcc1, flipBit]
  ac_rfl

theorem bcc1_flipBit_control (a c : Byte) (j : Nat) : bcc1 a (flipBit c j) = flipBit (bcc1 a c) j :=
  (BitVec.xor_assoc a c _).symm

/-- A bit inverted in one covered byte is inverted in the fold. -/
theorem xorFold_flipBit (u v : List Byte) (b : Byte) (j : Nat) :
    xorFold (u ++ flipBit b j :: v) = flipBit (xorFold (u ++ b :: v)) j := by
  simp only [xorFold_append, xorFold, flipBit]
  ac_rfl

/-- Settles O8: a checksum inverts the same bit as the byte it covers, so one inversion shows and a second one undoes it. -/
theorem checksumsDetectOneBit : Obligations.ChecksumsDetectOneBit := by
  refine ⟨fun u v b j hj => ?_, fun u v w b c j _ => ?_, fun a c j hj => ⟨?_, ?_⟩⟩
  · rw [xorFold_flipBit]
    exact flipBit_ne _ hj
  · rw [xorFold_flipBit, List.append_assoc, List.cons_append, xorFold_flipBit, flipBit_flipBit, List.append_assoc,
      List.cons_append]
  · rw [bcc1_flipBit_address]
    exact flipBit_ne _ hj
  · rw [bcc1_flipBit_control]
    exact flipBit_ne _ hj

end Sys2Proof.Machine
end

section
/-! PROOFS. The recognizer over a list of bytes: its table, what it has read in each state, and the frames that bring it to Done
(R151 to R160). -/

namespace Sys2Proof.Machine

/-! ### The table, row by row (R152 to R156) -/

section
variable (K : List Byte) (x : Byte)

@[simp] theorem recNext_idle (b : Byte) : recNext K b .idle x = (if b = TERM then .termSeen else .idle, x) := rfl

@[simp] theorem recNext_termSeen_term : recNext K TERM .termSeen x = (.termSeen, x) := rfl

@[simp] theorem recNext_termSeen_address : recNext K ADDR .termSeen x = (.addrSeen, x) := rfl

theorem recNext_termSeen_other {b : Byte} (ht : b ≠ TERM) (ha : b ≠ ADDR) : recNext K b .termSeen x = (.idle, x) := by
  simp [recNext, ht, ha]

theorem recNext_addrSeen_awaited {K : List Byte} {b : Byte} (hb : b ∈ K) : recNext K b .addrSeen x = (.ctrlSeen, b) :=
  if_pos hb

theorem recNext_addrSeen_not_awaited {K : List Byte} {b : Byte} (hb : b ∉ K) : recNext K b .addrSeen x = (.idle, x) :=
  if_neg hb

@[simp] theorem recNext_ctrlSeen_bcc1 : recNext K (bcc1 ADDR x) .ctrlSeen x = (.bccSeen, x) := by
  simp [recNext]

theorem recNext_ctrlSeen_wrong {b : Byte} (hb : b ≠ bcc1 ADDR x) : recNext K b .ctrlSeen x = (.idle, x) := by
  simp [recNext, hb]

@[simp] theorem recNext_bccSeen (b : Byte) : recNext K b .bccSeen x = (if b = TERM then .done else .idle, x) := rfl

end

/-- Settles O9: the rows of the table one by one. -/
theorem recognizerTransitionTable : Obligations.RecognizerTransitionTable := by
  intro K b x s
  refine ⟨recNext_idle K x b, recNext_termSeen_term K x, recNext_termSeen_address K x, recNext_termSeen_other K x,
    recNext_addrSeen_awaited x, recNext_addrSeen_not_awaited x, ?_, recNext_ctrlSeen_wrong K x, recNext_bccSeen K x b, rfl⟩
  rintro rfl
  exact recNext_ctrlSeen_bcc1 K x

/-! ### Runs -/

@[simp] theorem recRun_nil (K : List Byte) (p : RecState × Byte) : recRun K [] p = p := rfl

@[simp] theorem recRun_cons (K : List Byte) (b : Byte) (l : List Byte) (p : RecState × Byte) :
    recRun K (b :: l) p = recRun K l (recNext K b p.1 p.2) := rfl

/-- A frame of the key is recognized where its opening TERM is taken as one (R160 (a)). -/
theorem recRun_awaited {K : List Byte} {c : Byte} (x : Byte) {st : RecState} (hc : c ∈ K)
    (hs : st = .idle ∨ st = .termSeen) : recRun K (encodeS ADDR c) (st, x) = (.done, c) := by
  have hopen : recNext K TERM st x = (.termSeen, x) := by
    rcases hs with rfl | rfl <;> simp
  simp [encodeS, hopen, recNext_addrSeen_awaited x hc]

/-! ### A frame missed part-way through a header (R160 (b)) -/

/-- Idle skips every byte up to the next TERM. -/
theorem recRun_skip_to_term (K : List Byte) (x : Byte) {l : List Byte} (hl : TERM ∉ l) :
    recRun K (l ++ [TERM]) (.idle, x) = (.termSeen, x) := by
  induction l with
  | nil => simp
  | cons b r ih =>
    have hb : b ≠ TERM := (List.ne_of_not_mem_cons hl).symm
    simpa [hb] using ih (List.not_mem_of_not_mem_cons hl)

section
variable {p : Phase} {n : SeqBit} {x : Byte} {st : RecState}

/-- No key holds TERM, nor a control byte with TERM as its BCC1. -/
theorem recNext_term_mid_header (hx : x ∈ keyOf p n) (hs : st = .addrSeen ∨ st = .ctrlSeen) :
    recNext (keyOf p n) TERM st x = (.idle, x) := by
  rcases hs with rfl | rfl
  · exact recNext_addrSeen_not_awaited x (term_not_mem_keyOf p n)
  · exact recNext_ctrlSeen_wrong _ x (bcc1_ne_term_of_mem_keyOf p n x hx).symm

theorem term_not_mem_header_of_mem_keyOf {c : Byte} (hc : c ∈ keyOf p n) : TERM ∉ [ADDR, c, bcc1 ADDR c] := by
  have ha : TERM ≠ ADDR := by decide
  have ht : TERM ≠ c := fun h => term_not_mem_keyOf p n (h ▸ hc)
  simp [ha, ht, (bcc1_ne_term_of_mem_keyOf p n c hc).symm]

theorem recRun_mid_header {c : Byte} (hc : c ∈ keyOf p n) (hx : x ∈ keyOf p n) (hs : st = .addrSeen ∨ st = .ctrlSeen) :
    recRun (keyOf p n) (encodeS ADDR c) (st, x) = (.termSeen, x) := by
  rw [encodeS, recRun_cons, recNext_term_mid_header hx hs]
  exact recRun_skip_to_term _ x (term_not_mem_header_of_mem_keyOf hc)

end

/-! ### Done is reached on an awaited frame only (R160 (c)) -/

/-- The bytes of a frame read so far, by REC_STATE, where c is the control byte held. -/
def RecState.bytesRead (c : Byte) : RecState → List Byte
  | .idle => []
  | .termSeen => [TERM]
  | .addrSeen => [TERM, ADDR]
  | .ctrlSeen => [TERM, ADDR, c]
  | .bccSeen => [TERM, ADDR, c, bcc1 ADDR c]
  | .body => []
  | .done => encodeS ADDR c

/-- The states in which REC_CTRL holds the control byte of the frame being read. -/
def RecState.holdsControl : RecState → Bool
  | .ctrlSeen => true
  | .bccSeen => true
  | .done => true
  | _ => false

/-- What is known of REC_STATE and REC_CTRL after the bytes l: the part of a frame that REC_STATE stands for is the last that
was read, and a control byte that is held is awaited. -/
structure HasRead (K l : List Byte) (p : RecState × Byte) : Prop where
  suffix : p.1.bytesRead p.2 <:+ l
  awaited : p.1.holdsControl = true → p.2 ∈ K

section
variable {K l : List Byte}

theorem HasRead.idle (K l : List Byte) (x : Byte) : HasRead K l (.idle, x) := ⟨List.nil_suffix, nofun⟩

theorem HasRead.termSeen (K l : List Byte) (x : Byte) : HasRead K (l ++ [TERM]) (.termSeen, x) :=
  ⟨List.suffix_append l _, nofun⟩

/-- Each row of the table either reads the next byte of the frame or gives the frame up. -/
theorem HasRead.recNext {st : RecState} {x : Byte} (h : HasRead K l (st, x)) (b : Byte) :
    HasRead K (l ++ [b]) (recNext K b st x) := by
  obtain ⟨hl, hx⟩ := h
  have hread : st.bytesRead x ++ [b] <:+ l ++ [b] := List.suffix_append_self_iff.mpr hl
  cases st with
  | idle =>
    rw [recNext_idle]
    split_ifs with hb
    · exact hb ▸ .termSeen K l x
    · exact .idle K _ x
  | termSeen =>
    by_cases ht : b = TERM
    · subst ht
      exact .termSeen K l x
    · by_cases ha : b = ADDR
      · subst ha
        exact ⟨hread, nofun⟩
      · rw [recNext_termSeen_other K x ht ha]
        exact .idle K _ x
  | addrSeen =>
    by_cases hb : b ∈ K
    · rw [recNext_addrSeen_awaited x hb]
      exact ⟨hread, fun _ => hb⟩
    · rw [recNext_addrSeen_not_awaited x hb]
      exact .idle K _ x
  | ctrlSeen =>
    by_cases hb : b = bcc1 ADDR x
    · subst hb
      rw [recNext_ctrlSeen_bcc1]
      exact ⟨hread, hx⟩
    · rw [recNext_ctrlSeen_wrong K x hb]
      exact .idle K _ x
  | bccSeen =>
    rw [recNext_bccSeen]
    split_ifs with hb
    · subst hb
      exact ⟨hread, hx⟩
    · exact .idle K _ x
  | body | done => exact .idle K _ x

theorem HasRead.recRun {p : RecState × Byte} (h : HasRead K l p) (m : List Byte) : HasRead K (l ++ m) (recRun K m p) := by
  induction m generalizing l p with
  | nil => rwa [List.append_nil]
  | cons b r ih => simpa using ih (h.recNext b)

theorem recRun_idle_eq_done {x : Byte} (h : (recRun K l (.idle, x)).1 = .done) :
    ∃ u c, c ∈ K ∧ l = u ++ encodeS ADDR c ∧ (recRun K l (.idle, x)).2 = c := by
  obtain ⟨hl, hc⟩ := (HasRead.idle K [] x).recRun l
  rw [h] at hl hc
  obtain ⟨u, hu⟩ := hl
  exact ⟨u, _, hc rfl, hu.symm, rfl⟩

end

/-- Settles O10: (a) along the frame, (b) since no key holds TERM or has it as a BCC1, (c) by the bytes each state has read. -/
theorem recognizerCompletesExactlyOnAwaitedFrames : Obligations.RecognizerCompletesExactlyOnAwaitedFrames := by
  refine ⟨fun _ _ x _ hc hs => recRun_awaited x hc hs, fun _ _ _ _ _ hc hx hs => ⟨?_, ?_⟩,
    fun _ _ _ h => recRun_idle_eq_done h, fun _ _ _ => ⟨_, _, rfl⟩⟩
  · exact recNext_term_mid_header hx hs
  · exact recRun_mid_header hc hx hs

end Sys2Proof.Machine
end

section
/-! PROOFS. The handshake and the teardown: OPEN and CLOSE in P_IDLE, the frames they wait for, and the
expiry of their timer (R180 to R185, R187 to R193). -/

namespace Sys2Proof.Machine

/-! ### OPEN and CLOSE in P_IDLE -/

section
variable {c : OpenConfig} {s : State} (hp : s.phase = .idle)

theorem openAllowed_iff : s.openAllowed c = true ↔ s.connState = .closed ∧ c.maxPayloadSize ≤ s.bufSize := by
  simp [State.openAllowed]

include hp

theorem exec_openCmd_refused (h : ¬(s.connState = .closed ∧ c.maxPayloadSize ≤ s.bufSize)) :
    exec (.openCmd c) s = .next (badCommand s) := by
  rw [← openAllowed_iff] at h
  simp [exec, execOpen, hp, runOpen, h]

/-- The Initiator's half of an accepted OPEN (R180, R181). -/
theorem exec_openCmd_initiator (hc : s.connState = .closed) (hm : c.maxPayloadSize ≤ s.bufSize) (hr : c.role = .initiator) :
    exec (.openCmd c) s = .next (startOpenInitiator (latchConfig c s)) := by
  simp [exec, execOpen, hp, runOpen, openAllowed_iff.mpr ⟨hc, hm⟩, hr]

/-- The Responder's half of an accepted OPEN (R180, R184). -/
theorem exec_openCmd_responder (hc : s.connState = .closed) (hm : c.maxPayloadSize ≤ s.bufSize) (hr : c.role = .responder) :
    exec (.openCmd c) s = .next (startOpenResponder (latchConfig c s)) := by
  simp [exec, execOpen, hp, runOpen, openAllowed_iff.mpr ⟨hc, hm⟩, hr]

theorem exec_closeCmd_refused (h : s.connState ≠ .opened) : exec .closeCmd s = .next (badCommand s) := by
  simp [exec, execClose, hp, runClose, State.isOpen, h]

/-- The Initiator's half of an accepted CLOSE (R187, R188). -/
theorem exec_closeCmd_initiator (hc : s.connState = .opened) (hr : s.cfgRole = .initiator) :
    exec .closeCmd s = .next (startCloseInitiator (startClosing s)) := by
  simp [exec, execClose, hp, runClose, State.isOpen, hc, hr]

/-- The Responder's half of an accepted CLOSE (R187, R191). -/
theorem exec_closeCmd_responder (hc : s.connState = .opened) (hr : s.cfgRole = .responder) :
    exec .closeCmd s = .next (startCloseResponder (startClosing s)) := by
  simp [exec, execClose, hp, runClose, State.isOpen, hc, hr]

end

/-- The SET of an accepted OPEN is sent whole when its write succeeds. -/
theorem startOpenInitiator_latchConfig {c : OpenConfig} {s : State} (hw : s.writeFate = none) :
    startOpenInitiator (latchConfig c s) =
      { arm { latchConfig c s with txq := s.txq ++ setBytes } with phase := .openIWaitUa } :=
  transmit_none _ _ _ hw

/-- The DISC of an accepted CLOSE is sent whole when its write succeeds. -/
theorem startCloseInitiator_startClosing {s : State} (hw : s.writeFate = none) :
    startCloseInitiator (startClosing s) =
      { arm { startClosing s with txq := s.txq ++ discBytes } with phase := .closeIWaitDisc } :=
  transmit_none _ _ _ hw

/-- Settles O11: a refused OPEN, and the two halves of an accepted one. -/
theorem openLatchesAndStartsTheHandshake : Obligations.OpenLatchesAndStartsTheHandshake := by
  refine fun c s hp => ⟨exec_openCmd_refused hp, fun hc hm hr hw => ?_, fun hc hm hr => ?_⟩
  · rw [exec_openCmd_initiator hp hc hm hr, startOpenInitiator_latchConfig hw, ← hr]
    rfl
  · rw [exec_openCmd_responder hp hc hm hr, ← hr]
    rfl

/-- Settles O12: a refused CLOSE, and the two halves of an accepted one. -/
theorem closeStartsTheTeardown : Obligations.CloseStartsTheTeardown := by
  refine fun s hp => ⟨exec_closeCmd_refused hp, fun hc hr hw => ?_, exec_closeCmd_responder hp⟩
  rw [exec_closeCmd_initiator hp hc hr, startCloseInitiator_startClosing hw]
  rfl

/-! ### The awaited frame -/

section
variable {p : Phase} {s : State} (hp : s.phase = p) (hi : p ≠ .idle) (hr : p ≠ .recv)
include hp hi hr

/-- A byte that does not complete the awaited frame is the recognizer's step and nothing else (R151). -/
theorem rxByte_of_not_done {K : List Byte} (hk : keyOf p s.nextSeq = K) {b : Byte}
    (hd : (recStep K b s).recState ≠ .done) : rxByte b s = .next (recStep K b s) := by
  subst hp hk
  exact rxByte_scan b s hi hr hd

/-- A whole supervisory frame of the key comes down to its closing TERM, taken in BccSeen (R160). -/
theorem exec_awaited {i : Instr} {c : Byte} (hf : i.isFrame = true) (hw : encodeWire i = encodeS ADDR c)
    (hc : c ∈ keyOf p s.nextSeq) (hs : s.recState = .idle ∨ s.recState = .termSeen) :
    exec i s = rxByte TERM { s with recState := .bccSeen, recCtrl := c } := by
  subst hp
  rw [exec_frame i s hf, hw, deliver_awaited c s hi hr hc hs]

end

/-- The closing TERM completes the frame (R156). -/
theorem recStep_closing (K : List Byte) (c : Byte) (s : State) :
    (recStep K TERM { s with recState := .bccSeen, recCtrl := c }).recState = .done := by
  simp

section
variable {s : State} {b : Byte}

/-- The byte that completes SET (R185). -/
theorem rxByte_completes_set (hp : s.phase = .openRWaitSet) (hd : (recStep keySet b s).recState = .done)
    (hw : s.writeFate = none) :
    rxByte b s = .next (post .ok
      { recStep keySet b s with txq := s.txq ++ uaBytes, connState := .opened, recState := .idle }) := by
  rw [rxByte, hp]
  exact (if_pos hd).trans (congrArg _ (transmit_none _ _ _ hw))

/-- The byte that completes the UA of OPEN (R182). -/
theorem rxByte_completes_ua_of_open (hp : s.phase = .openIWaitUa) (hd : (recStep keyUa b s).recState = .done) :
    rxByte b s = .next (post .ok { recStep keyUa b s with connState := .opened, recState := .idle }) := by
  rw [rxByte, hp]
  exact if_pos hd

/-- The byte that completes the UA of CLOSE (R193). -/
theorem rxByte_completes_ua_of_close (hp : s.phase = .closeRWaitUa) (hd : (recStep keyUa b s).recState = .done) :
    rxByte b s = .next (post .ok { recStep keyUa b s with connState := .closed, recState := .idle }) := by
  rw [rxByte, hp]
  exact if_pos hd

/-- The byte that completes the DISC the Initiator waits for (R189). -/
theorem rxByte_completes_disc_of_initiator (hp : s.phase = .closeIWaitDisc)
    (hd : (recStep keyDisc b s).recState = .done) (hw : s.writeFate = none) :
    rxByte b s = .next (post .ok
      { recStep keyDisc b s with txq := s.txq ++ uaBytes, connState := .closed, recState := .idle }) := by
  rw [rxByte, hp]
  exact (if_pos hd).trans (congrArg _ (transmit_none _ _ _ hw))

/-- The byte that completes the DISC the Responder waits for (R192). -/
theorem rxByte_completes_disc_of_responder (hp : s.phase = .closeRWaitDisc)
    (hd : (recStep keyDisc b s).recState = .done) (hw : s.writeFate = none) :
    rxByte b s = .next
      { recStep keyDisc b s with txq := s.txq ++ discBytes, recState := .idle, phase := .closeRWaitUa } := by
  rw [rxByte, hp]
  exact (if_pos hd).trans (congrArg _ (transmit_none _ _ _ hw))

end

/-- The frame UA while OPEN waits for it (R182). -/
theorem exec_uaFrame_opens {s : State} (hp : s.phase = .openIWaitUa) (hs : s.recState = .idle ∨ s.recState = .termSeen) :
    exec .uaFrame s = .next (post .ok { s with connState := .opened, recState := .idle, recCtrl := C_UA }) := by
  rw [exec_awaited hp nofun nofun rfl rfl (List.mem_singleton_self C_UA) hs]
  exact rxByte_completes_ua_of_open (s := { s with recState := .bccSeen, recCtrl := C_UA }) hp (recStep_closing _ _ _)

/-- Settles O17, by the byte that completes SET. -/
theorem setOpensTheResponder : Obligations.SetOpensTheResponder := by
  refine fun s hp => ⟨fun b => rxByte_of_not_done hp nofun nofun rfl, fun b => rxByte_completes_set hp, fun hs hw => ?_⟩
  rw [exec_awaited hp nofun nofun rfl rfl (List.mem_singleton_self C_SET) hs]
  exact rxByte_completes_set (s := { s with recState := .bccSeen, recCtrl := C_SET }) hp (recStep_closing _ _ _) hw

/-- Settles O18, by the byte that completes UA in either phase. -/
theorem uaOpensTheInitiatorAndClosesTheResponder : Obligations.UaOpensTheInitiatorAndClosesTheResponder := by
  refine fun s => ⟨fun hp => ⟨fun b => ?_, fun b => ?_, ?_⟩, fun hp => ⟨fun b => ?_, fun b => ?_, fun hs => ?_⟩⟩
  · exact rxByte_of_not_done hp nofun nofun rfl
  · exact rxByte_completes_ua_of_open hp
  · exact exec_uaFrame_opens hp
  · exact rxByte_of_not_done hp nofun nofun rfl
  · exact rxByte_completes_ua_of_close hp
  · rw [exec_awaited hp nofun nofun rfl rfl (List.mem_singleton_self C_UA) hs]
    exact rxByte_completes_ua_of_close (s := { s with recState := .bccSeen, recCtrl := C_UA }) hp (recStep_closing _ _ _)

/-- Settles O19, by the byte that completes DISC in either phase. -/
theorem discEndsOrAnswersTheTeardown : Obligations.DiscEndsOrAnswersTheTeardown := by
  refine fun s hw => ⟨fun hp => ⟨fun b => ?_, fun b hd => ?_, fun hs => ?_⟩,
    fun hp => ⟨fun b => ?_, fun b hd => ?_, fun hs => ?_⟩⟩
  · exact rxByte_of_not_done hp nofun nofun rfl
  · exact rxByte_completes_disc_of_initiator hp hd hw
  · rw [exec_awaited hp nofun nofun rfl rfl (List.mem_singleton_self C_DISC) hs]
    exact rxByte_completes_disc_of_initiator (s := { s with recState := .bccSeen, recCtrl := C_DISC }) hp
      (recStep_closing _ _ _) hw
  · exact rxByte_of_not_done hp nofun nofun rfl
  · exact rxByte_completes_disc_of_responder hp hd hw
  · rw [exec_awaited hp nofun nofun rfl rfl (List.mem_singleton_self C_DISC) hs]
    exact rxByte_completes_disc_of_responder (s := { s with recState := .bccSeen, recCtrl := C_DISC }) hp
      (recStep_closing _ _ _) hw

/-! ### The tick that exhausts the timer -/

section
variable {s : State}

theorem tick_counts (ha : s.timerArmed = true) (hr : 1 < s.timerRemaining) :
    tick s = .next { s with timerRemaining := s.timerRemaining - 1 } := by
  simp [tick, ha, State.timerExpires, Nat.not_le.mpr hr]

theorem tick_expires (ha : s.timerArmed = true) (hr : s.timerRemaining ≤ 1) : tick s = timeoutRule (disarm s) := by
  simp [tick, ha, State.timerExpires, hr]

theorem retriesExhausted_countRetry : (countRetry s).retriesExhausted = true ↔ s.cfgRetryLimit < s.retryCount + 1 := by
  simp [State.retriesExhausted]

/-- Beyond the limit OPEN and CLOSE fail alike (R183, R190). -/
theorem timeoutRule_exhausted (hp : s.phase = .openIWaitUa ∨ s.phase = .closeIWaitDisc)
    (hx : s.cfgRetryLimit < s.retryCount + 1) : timeoutRule s = .next (connectFailed (countRetry s)) := by
  have hx := retriesExhausted_countRetry.mpr hx
  rcases hp with hp | hp
  · simp [timeoutRule, hp, timeoutOpen, hx]
  · simp [timeoutRule, hp, timeoutClose, hx]

/-- Within the limit OPEN sends SET again (R183). -/
theorem timeoutRule_resends_set (hp : s.phase = .openIWaitUa) (hx : s.retryCount + 1 ≤ s.cfgRetryLimit)
    (hw : s.writeFate = none) :
    timeoutRule s = .next { arm (countRetry s) with txq := s.txq ++ setBytes, recState := .idle } := by
  have hx := mt retriesExhausted_countRetry.mp (Nat.not_lt.mpr hx)
  rw [timeoutRule, hp]
  exact (if_neg hx).trans (congrArg _ (transmit_none _ _ _ hw))

/-- Within the limit CLOSE sends DISC again (R190). -/
theorem timeoutRule_resends_disc (hp : s.phase = .closeIWaitDisc) (hx : s.retryCount + 1 ≤ s.cfgRetryLimit)
    (hw : s.writeFate = none) :
    timeoutRule s = .next { arm (countRetry s) with txq := s.txq ++ discBytes, recState := .idle } := by
  have hx := mt retriesExhausted_countRetry.mp (Nat.not_lt.mpr hx)
  rw [timeoutRule, hp]
  exact (if_neg hx).trans (congrArg _ (transmit_none _ _ _ hw))

end

/-- Settles O31: the expiring tick is the Timeout rule of the phase, on either side of the limit. -/
theorem handshakeTimeoutResendsOrFails : Obligations.HandshakeTimeoutResendsOrFails := by
  refine fun s ha hr => ⟨fun hp hx => ?_, fun hp hx hw => ?_, fun hp hx hw => ?_⟩ <;> rw [tick_expires ha hr]
  · exact timeoutRule_exhausted (s := disarm s) hp hx
  · rw [timeoutRule_resends_set (s := disarm s) hp hx hw, ha]
    rfl
  · rw [timeoutRule_resends_disc (s := disarm s) hp hx hw, ha]
    rfl

end Sys2Proof.Machine
end

section
/-! PROOFS. The counts of the Initiator's OPEN: steps over the ticks up to an expiry, the expiries that send SET again, and the two
ends of the operation (R183, R186, R321). -/

namespace Sys2Proof.Machine

/-! ### Runs of steps -/

theorem steps_succ {n : Nat} {s t : State} (h : step s = .next t) : steps (n + 1) s = steps n t := by
  simp [steps, h]

theorem steps_one (s : State) : steps 1 s = step s := by
  unfold steps
  cases step s <;> rfl

theorem steps_add {m n : Nat} {s t : State} (h : steps m s = .next t) : steps (m + n) s = steps n t := by
  induction m generalizing s with
  | zero =>
    obtain rfl : s = t := Host.Outcome.next.inj h
    rw [Nat.zero_add]
  | succ m ih =>
    cases hs : step s with
    | next u =>
      rw [steps_succ hs] at h
      rw [Nat.succ_add, steps_succ hs, ih h]
    | fault f => simp [steps, hs] at h
    | refused x => simp [steps, hs] at h

theorem copies_add (m n : Nat) (l : List Byte) : copies (m + n) l = copies m l ++ copies n l := by
  induction m with
  | zero => simp [copies]
  | succ m ih => rw [Nat.succ_add, copies, copies, ih, List.append_assoc]

/-! ### Ticks up to the expiry -/

section
variable {s : State} {rest : List Event}

theorem step_of_tick (hg : s.agenda = .tick :: rest) : step s = tick { s with agenda := rest } :=
  step_of_agenda_cons hg

/-- Ticks that do not exhaust the timer count it down. -/
theorem steps_count_down {n : Nat} (ha : s.timerArmed = true) (hn : n < max s.timerRemaining 1)
    (hg : s.agenda = List.replicate n .tick ++ rest) :
    steps n s = .next { s with agenda := rest, timerRemaining := s.timerRemaining - n } := by
  induction n generalizing s with
  | zero =>
    obtain rfl : s.agenda = rest := hg
    rfl
  | succ n ih =>
    have hr : 1 < s.timerRemaining := by omega
    have hstep := (step_of_tick hg).trans
      (tick_counts (s := { s with agenda := List.replicate n .tick ++ rest }) ha hr)
    have hrest := ih (s := { s with agenda := List.replicate n .tick ++ rest, timerRemaining := s.timerRemaining - 1 })
      ha (by dsimp only; omega) rfl
    rw [steps_succ hstep, hrest, Nat.sub_sub, Nat.add_comm 1 n]

/-- The state that the last tick of the timer finds, with these events to come. -/
def State.atExpiry (rest : List Event) (s : State) : State :=
  { s with agenda := rest, timerRemaining := min s.timerRemaining 1 }

/-- A whole period ends with the tick that exhausts the timer; a timeout of 0 behaves as 1 (R321). -/
theorem steps_to_expiry (ha : s.timerArmed = true) (hg : s.agenda = List.replicate (max s.timerRemaining 1) .tick ++ rest) :
    steps (max s.timerRemaining 1) s = tick (s.atExpiry rest) := by
  obtain ⟨n, hn⟩ : ∃ n, max s.timerRemaining 1 = n + 1 := ⟨max s.timerRemaining 1 - 1, by omega⟩
  have hmin : s.timerRemaining - n = min s.timerRemaining 1 := by omega
  rw [hn, List.replicate_add, List.append_assoc] at hg
  rw [hn, steps_add (steps_count_down ha (by omega) hg), steps_one, hmin]
  exact step_of_tick rfl

end

/-! ### OPEN between two expiries -/

/-- The Initiator has just sent SET and waits for UA. -/
structure State.AwaitsUa (s : State) : Prop where
  phase : s.phase = .openIWaitUa
  armed : s.timerArmed = true
  remaining : s.timerRemaining = s.cfgTimeout
  scanning : s.recState = .idle
  writes : s.writeFate = none

/-- The state after k more expiries within the limit (R183), with these events to come. -/
def State.resent (k : Nat) (rest : List Event) (s : State) : State :=
  { s with agenda := rest, retryCount := s.retryCount + k, txq := s.txq ++ copies k setBytes }

theorem State.resent_resent (k m : Nat) (r rest : List Event) (s : State) :
    (s.resent k r).resent m rest = s.resent (k + m) rest := by
  simp [State.resent, copies_add, Nat.add_assoc]

theorem State.AwaitsUa.resent {s : State} (h : s.AwaitsUa) (k : Nat) (rest : List Event) : (s.resent k rest).AwaitsUa :=
  ⟨h.phase, h.armed, h.remaining, h.scanning, h.writes⟩

section
variable {s : State} (h : s.AwaitsUa) {rest : List Event}
include h

/-- A period without UA ends with the phase's Timeout rule. -/
theorem State.AwaitsUa.steps_period (hg : s.agenda = List.replicate s.period .tick ++ rest) :
    steps s.period s = timeoutRule (disarm (s.atExpiry rest)) := by
  rw [State.period, ← h.remaining] at hg ⊢
  rw [steps_to_expiry h.armed hg]
  exact tick_expires (s := s.atExpiry rest) h.armed (Nat.min_le_right _ _)

theorem State.AwaitsUa.steps_resend (hx : s.retryCount + 1 ≤ s.cfgRetryLimit)
    (hg : s.agenda = List.replicate s.period .tick ++ rest) : steps s.period s = .next (s.resent 1 rest) := by
  have hrule := timeoutRule_resends_set (s := disarm (s.atExpiry rest)) h.phase hx h.writes
  rw [h.steps_period hg, hrule]
  simp [State.resent, State.atExpiry, copies, h.armed, h.remaining, h.scanning]

theorem State.AwaitsUa.steps_fail (hx : s.cfgRetryLimit < s.retryCount + 1)
    (hg : s.agenda = List.replicate s.period .tick ++ rest) :
    steps s.period s = .next (connectFailed (countRetry (disarm (s.atExpiry rest)))) := by
  rw [h.steps_period hg]
  exact timeoutRule_exhausted (s := disarm (s.atExpiry rest)) (.inl h.phase) hx

/-- As long as the limit allows, every period sends SET once more and counts one retry (R186). -/
theorem State.AwaitsUa.steps_resends {k : Nat} (hx : s.retryCount + k ≤ s.cfgRetryLimit)
    (hg : s.agenda = List.replicate (k * s.period) .tick ++ rest) :
    steps (k * s.period) s = .next (s.resent k rest) := by
  induction k generalizing s with
  | zero =>
    obtain rfl : s.agenda = rest := by simpa using hg
    simp [steps, State.resent, copies]
  | succ k ih =>
    rw [Nat.succ_mul, Nat.add_comm] at hg ⊢
    rw [List.replicate_add, List.append_assoc] at hg
    have hfirst := h.steps_resend (by omega) hg
    have hrest := ih (s := s.resent 1 (List.replicate (k * s.period) .tick ++ rest)) (h.resent 1 _)
      (by simp only [State.resent]; omega) rfl
    rw [steps_add hfirst]
    exact hrest.trans (by rw [State.resent_resent, Nat.add_comm])

/-- With no UA the retries run out at the period after the last that sends SET again (R183, R186). -/
theorem State.AwaitsUa.steps_give_up (h0 : s.retryCount = 0)
    (hg : s.agenda = List.replicate ((s.cfgRetryLimit + 1) * s.period) .tick ++ rest) :
    steps ((s.cfgRetryLimit + 1) * s.period) s =
      .next (connectFailed (countRetry (disarm ((s.resent s.cfgRetryLimit rest).atExpiry rest)))) := by
  rw [Nat.succ_mul] at hg ⊢
  rw [List.replicate_add, List.append_assoc] at hg
  rw [steps_add (h.steps_resends (by omega) hg)]
  exact (h.resent s.cfgRetryLimit (List.replicate s.period .tick ++ rest)).steps_fail (by simp only [State.resent]; omega) rfl

/-- With UA after k expiries the link opens (R182, R186). -/
theorem State.AwaitsUa.steps_open {k : Nat} {q : List Byte} (hx : s.retryCount + k ≤ s.cfgRetryLimit)
    (hg : s.agenda = List.replicate (k * s.period) .tick ++ .frame :: rest) (hc : s.testChannel = none)
    (hq : s.rxq = uaBytes ++ q) :
    steps (k * s.period + 1) s =
      .next (post .ok { s.resent k rest with rxq := q, connState := .opened, recState := .idle, recCtrl := C_UA }) := by
  have hframe := step_of_frame (i := .uaFrame) (s := s.resent k (.frame :: rest)) rfl rfl hc hq
  rw [steps_add (h.steps_resends hx hg), steps_one, hframe]
  exact exec_uaFrame_opens (s := { s.resent k rest with rxq := q }) h.phase (.inl h.scanning)

end

/-- The Initiator after the step that takes an OPEN it accepts (R180, R181). -/
theorem step_open {c : OpenConfig} {s : State} {q : List CmdRecord} {rest : List Event} (hr : c.role = .initiator)
    (hm : c.maxPayloadSize ≤ s.bufSize) (hp : s.phase = .idle) (hc : s.connState = .closed) (hw : s.writeFate = none)
    (hq : s.port = openRecord c :: q) (hg : s.agenda = .cmd :: rest) :
    ∃ t, step s = .next t ∧ t.AwaitsUa ∧ t.cfgRetryLimit = c.retryLimit ∧ t.period = max c.timeoutDuration 1 ∧
      t.retryCount = 0 ∧ t.txq = s.txq ++ setBytes ∧ t.agenda = rest ∧ t.rxq = s.rxq ∧ t.testChannel = s.testChannel := by
  have hexec := exec_openCmd_initiator (c := c) (s := { s with agenda := rest, port := q }) hp hc hm hr
  rw [startOpenInitiator_latchConfig (s := { s with agenda := rest, port := q }) hw] at hexec
  exact ⟨_, (step_of_cmd hp hg hq).trans hexec, ⟨rfl, rfl, rfl, rfl, hw⟩, rfl, rfl, rfl, rfl, rfl, rfl, rfl⟩

/-- Settles O33: the step of the OPEN, and either end of the wait that follows it. -/
theorem openTransmitsSetOncePerRetry : Obligations.OpenTransmitsSetOncePerRetry := by
  refine fun c s k q rest hr hm hp hc hw hq => ⟨fun hg => ?_, fun hk htc hg ⟨q', hrx⟩ => ?_⟩
  · obtain ⟨u, hopen, hu, hlim, hper, hcount, htx, hag, -, -⟩ := step_open hr hm hp hc hw hq hg
    rw [← hlim, ← hper] at hag ⊢
    have hrun := hu.steps_give_up hcount hag
    rw [← steps_succ hopen, Nat.add_comm] at hrun
    refine ⟨_, hrun, ?_, rfl, ?_, rfl, rfl, rfl, rfl⟩
    · simp [connectFailed, State.atExpiry, State.resent, htx, copies]
    · simp [connectFailed, State.atExpiry, State.resent, hcount]
  · obtain ⟨u, hopen, hu, hlim, hper, hcount, htx, hag, hurx, hutc⟩ := step_open hr hm hp hc hw hq hg
    rw [← hper] at hag ⊢
    have hrun := hu.steps_open (by omega) hag (hutc.trans htc) (hurx.trans hrx)
    rw [← steps_succ hopen, Nat.add_right_comm, Nat.add_comm _ 1] at hrun
    refine ⟨_, hrun, ?_, rfl, ?_, rfl, rfl, rfl, rfl⟩
    · simp [State.resent, htx, copies]
    · simp [State.resent, hcount]

end Sys2Proof.Machine
end

section
/-! PROOFS. The sender: SEND in P_IDLE, the two replies it waits for, and the expiry of its timer (R220 to R226). -/

namespace Sys2Proof.Machine

/-! ### SEND in P_IDLE -/

section
variable {data : List Byte} {s : State}

theorem sendAllowed_iff : s.sendAllowed data = true ↔ s.connState = .opened ∧ data.length ≤ s.cfgMaxPayload := by
  simp [State.sendAllowed]

theorem exec_sendCmd_refused (hp : s.phase = .idle) (h : ¬(s.connState = .opened ∧ data.length ≤ s.cfgMaxPayload)) :
    exec (.sendCmd data) s = .next (badCommand s) := by
  rw [← sendAllowed_iff] at h
  simp [exec, execSend, hp, runSend, h]

end

/-- Settles O13: a refused SEND, and an accepted one. -/
theorem sendCopiesAndTransmits : Obligations.SendCopiesAndTransmits :=
  fun _ _ hp => ⟨exec_sendCmd_refused hp, exec_sendCmd_of_open hp⟩

/-! ### The replies -/

/-- Settles O20, by the RR that closes the frame in flight. -/
theorem rrFlipsNextSeqAndEndsSend : Obligations.RrFlipsNextSeqAndEndsSend :=
  fun _ _ => exec_rrInstr_ends_send

/-- The frame in flight goes out whole when its write succeeds (R221). -/
theorem sendFrame_of_payload {p : List Byte} {s : State} (h : s.txPayload = some p) (hw : s.writeFate = none) :
    sendFrame s = .next
      { arm s with txq := s.txq ++ inFlight s p, recState := .idle, phase := .sendWaitReply } := by
  rw [sendFrame, h]
  exact congrArg _ (transmit_none _ _ _ hw)

theorem encodeWire_rejInstr (n : SeqBit) : encodeWire (rejInstr n) = rejBytes n := by
  rcases seqBit_cases n with rfl | rfl <;> rfl

theorem isFrame_rejInstr (n : SeqBit) : (rejInstr n).isFrame = true := by
  rcases seqBit_cases n with rfl | rfl <;> rfl

/-- The two replies are told apart by their control bytes (R222). -/
theorem C_REJ_ne_C_RR (n : SeqBit) : C_REJ n ≠ C_RR n := by
  revert n; decide

/-- The byte that completes REJ sends the frame in flight again and restarts the timer (R225). -/
theorem rxByte_completes_rej {p : List Byte} {s : State} {b : Byte} (hp : s.phase = .sendWaitReply)
    (hd : (recStep (keyReply s.nextSeq) b s).recState = .done)
    (hc : (recStep (keyReply s.nextSeq) b s).recCtrl = C_REJ s.nextSeq) (ht : s.txPayload = some p)
    (hw : s.writeFate = none) :
    rxByte b s = .next
      { arm (recStep (keyReply s.nextSeq) b s) with txq := s.txq ++ inFlight s p, recState := .idle } := by
  have hsend := sendFrame_of_payload (s := disarm (recStep (keyReply s.nextSeq) b s)) ht hw
  rw [← hp] at hsend
  rw [rxByte, hp]
  exact (if_pos hd).trans ((if_neg (hc ▸ C_REJ_ne_C_RR _)).trans ((if_pos hc).trans hsend))

/-- R225 in full: REJ with NEXT_SEQ's bit, received while scanning. -/
theorem exec_rejInstr_resends {p : List Byte} {s : State} (hp : s.phase = .sendWaitReply)
    (hr : s.recState = .idle ∨ s.recState = .termSeen) (ht : s.txPayload = some p) (hw : s.writeFate = none) :
    exec (rejInstr s.nextSeq) s = .next
      { arm s with txq := s.txq ++ inFlight s p, recState := .idle, recCtrl := C_REJ s.nextSeq } := by
  have hkey : C_REJ s.nextSeq ∈ keyOf .sendWaitReply s.nextSeq := by simp [keyOf, keyReply, ackBit]
  rw [exec_awaited hp nofun nofun (isFrame_rejInstr _) (encodeWire_rejInstr _) hkey hr]
  exact rxByte_completes_rej (s := { s with recState := .bccSeen, recCtrl := C_REJ s.nextSeq }) hp
    (recStep_closing _ _ _) rfl ht hw

/-- Settles O21, by the REJ that sends the frame in flight again. -/
theorem rejRetransmitsWithoutARetry : Obligations.RejRetransmitsWithoutARetry := by
  rintro _ p s hp rfl hr ht hw
  exact exec_rejInstr_resends hp hr ht hw

/-! ### The tick that exhausts the timer -/

/-- The retries of SEND are exhausted (R226, R302). -/
def sendFailed (s : State) : State := post .maxRetriesExceeded { s with recState := .idle }

section
variable {s : State} (hp : s.phase = .sendWaitReply)
include hp

/-- Beyond the limit SEND gives up; the link stays as it was (R226). -/
theorem timeoutRule_gives_up (hx : s.cfgRetryLimit < s.retryCount + 1) :
    timeoutRule s = .next (sendFailed (countRetry s)) := by
  rw [timeoutRule, hp]
  exact if_pos (retriesExhausted_countRetry.mpr hx)

/-- Within the limit SEND sends the frame in flight again (R226). -/
theorem timeoutRule_resends_frame {p : List Byte} (hx : s.retryCount + 1 ≤ s.cfgRetryLimit) (ht : s.txPayload = some p)
    (hw : s.writeFate = none) :
    timeoutRule s = .next { arm (countRetry s) with txq := s.txq ++ inFlight s p, recState := .idle } := by
  have hx := mt retriesExhausted_countRetry.mp (Nat.not_lt.mpr hx)
  have hsend := sendFrame_of_payload (s := countRetry s) ht hw
  rw [← hp] at hsend
  rw [timeoutRule, hp]
  exact (if_neg hx).trans hsend

end

/-- Settles O32: the expiring tick is the Timeout rule of SEND, on either side of the limit. -/
theorem sendTimeoutResendsOrGivesUp : Obligations.SendTimeoutResendsOrGivesUp := by
  refine fun s hp ha hr => ⟨fun hx => ?_, fun p hx ht hw => ?_⟩ <;> rw [tick_expires ha hr]
  · exact timeoutRule_gives_up (s := disarm s) hp hx
  · rw [timeoutRule_resends_frame (s := disarm s) hp hx ht hw, ha]
    rfl

end Sys2Proof.Machine
end

section
/-! PROOFS. The count of a SEND that is never answered: the expiries that send its frame again, and the one that gives up
(R226, R229, R321). -/

namespace Sys2Proof.Machine

/-- A period of ticks from Arm() on ends with the phase's Timeout rule (R321). -/
theorem steps_period {s : State} {rest : List Event} (ha : s.timerArmed = true) (hr : s.timerRemaining = s.cfgTimeout)
    (hg : s.agenda = List.replicate s.period .tick ++ rest) :
    steps s.period s = timeoutRule (disarm (s.atExpiry rest)) := by
  rw [State.period, ← hr] at hg ⊢
  rw [steps_to_expiry ha hg]
  exact tick_expires (s := s.atExpiry rest) ha (Nat.min_le_right _ _)

/-- The sender has just sent the frame of this payload and waits for the reply. -/
structure State.AwaitsReply (p : List Byte) (s : State) : Prop where
  phase : s.phase = .sendWaitReply
  armed : s.timerArmed = true
  remaining : s.timerRemaining = s.cfgTimeout
  scanning : s.recState = .idle
  writes : s.writeFate = none
  payload : s.txPayload = some p

/-- The state after k more expiries within the limit (R226), with these events to come. -/
def State.retransmitted (p : List Byte) (k : Nat) (rest : List Event) (s : State) : State :=
  { s with agenda := rest, retryCount := s.retryCount + k, txq := s.txq ++ copies k (inFlight s p) }

theorem State.retransmitted_retransmitted (p : List Byte) (k m : Nat) (r rest : List Event) (s : State) :
    (s.retransmitted p k r).retransmitted p m rest = s.retransmitted p (k + m) rest := by
  simp [State.retransmitted, inFlight, copies_add, Nat.add_assoc]

theorem State.AwaitsReply.retransmitted {p : List Byte} {s : State} (h : s.AwaitsReply p) (k : Nat) (rest : List Event) :
    (s.retransmitted p k rest).AwaitsReply p :=
  ⟨h.phase, h.armed, h.remaining, h.scanning, h.writes, h.payload⟩

section
variable {p : List Byte} {s : State} (h : s.AwaitsReply p) {rest : List Event}
include h

theorem State.AwaitsReply.steps_resend (hx : s.retryCount + 1 ≤ s.cfgRetryLimit)
    (hg : s.agenda = List.replicate s.period .tick ++ rest) : steps s.period s = .next (s.retransmitted p 1 rest) := by
  have hrule := timeoutRule_resends_frame (s := disarm (s.atExpiry rest)) h.phase hx h.payload h.writes
  rw [steps_period h.armed h.remaining hg, hrule]
  simp [State.retransmitted, State.atExpiry, inFlight, copies, h.armed, h.remaining, h.scanning]

theorem State.AwaitsReply.steps_give_up (hx : s.cfgRetryLimit < s.retryCount + 1)
    (hg : s.agenda = List.replicate s.period .tick ++ rest) :
    steps s.period s = .next (sendFailed (countRetry (disarm (s.atExpiry rest)))) := by
  rw [steps_period h.armed h.remaining hg]
  exact timeoutRule_gives_up (s := disarm (s.atExpiry rest)) h.phase hx

/-- As long as the limit allows, every period sends the frame once more and counts one retry (R229). -/
theorem State.AwaitsReply.steps_resends {k : Nat} (hx : s.retryCount + k ≤ s.cfgRetryLimit)
    (hg : s.agenda = List.replicate (k * s.period) .tick ++ rest) :
    steps (k * s.period) s = .next (s.retransmitted p k rest) := by
  induction k generalizing rest with
  | zero =>
    obtain rfl : s.agenda = rest := by simpa using hg
    simp [steps, State.retransmitted, copies]
  | succ k ih =>
    rw [Nat.succ_mul] at hg ⊢
    rw [List.replicate_add, List.append_assoc] at hg
    have hlast := (h.retransmitted k (List.replicate s.period .tick ++ rest)).steps_resend (rest := rest)
      (by simp only [State.retransmitted]; omega) rfl
    rw [State.retransmitted_retransmitted] at hlast
    exact (steps_add (ih (by omega) hg)).trans hlast

/-- With no reply the retries run out at the period after the last that sends the frame again (R226, R229). -/
theorem State.AwaitsReply.steps_never_answered (h0 : s.retryCount = 0)
    (hg : s.agenda = List.replicate ((s.cfgRetryLimit + 1) * s.period) .tick ++ rest) :
    steps ((s.cfgRetryLimit + 1) * s.period) s =
      .next (sendFailed (countRetry (disarm ((s.retransmitted p s.cfgRetryLimit rest).atExpiry rest)))) := by
  rw [Nat.succ_mul] at hg ⊢
  rw [List.replicate_add, List.append_assoc] at hg
  rw [steps_add (h.steps_resends (by omega) hg)]
  exact (h.retransmitted s.cfgRetryLimit (List.replicate s.period .tick ++ rest)).steps_give_up
    (by simp only [State.retransmitted]; omega) rfl

end

/-- The sender after the step that takes a SEND it accepts (R220, R221). -/
theorem step_send_awaitsReply {data : List Byte} {s : State} {q : List CmdRecord} {rest : List Event}
    (hp : s.phase = .idle) (hc : s.connState = .opened) (hl : data.length ≤ s.cfgMaxPayload)
    (hm : s.cfgMaxPayload ≤ s.bufSize) (hw : s.writeFate = none) (hq : s.port = sendRecord data :: q)
    (hg : s.agenda = .cmd :: rest) :
    ∃ t, step s = .next t ∧ t.AwaitsReply data ∧ t.cfgRetryLimit = s.cfgRetryLimit ∧ t.period = s.period ∧
      t.retryCount = 0 ∧ t.txq = s.txq ++ encodeI ADDR (C_I s.nextSeq) data ∧ t.connState = .opened ∧
      t.nextSeq = s.nextSeq ∧ t.agenda = rest := by
  obtain ⟨m, hexec, hget⟩ := exec_sendCmd_of_open (s := { s with agenda := rest, port := q }) hp hc hl hm hw
  have hpay : bufReadRun s.bufSize (Config.unwrittenTx s.draws) m 0 data.length = some data :=
    bufReadRun_eq_some _ _ _ data 0 (by omega) fun j hj => by rw [Nat.zero_add, hget, if_pos hj]
  exact ⟨_, (step_of_cmd hp hg hq).trans hexec, ⟨rfl, rfl, rfl, rfl, hw, hpay⟩, rfl, rfl, rfl, rfl, hc, rfl, rfl⟩

/-- Settles O34: the step of the SEND, and the wait that ends at its last expiry. -/
theorem sendTransmitsOncePerRetry : Obligations.SendTransmitsOncePerRetry := by
  intro data s q rest hp hc hl hm hw hq hg
  obtain ⟨u, hsend, hu, hlim, hper, hcount, htx, hconn, hseq, hag⟩ := step_send_awaitsReply hp hc hl hm hw hq hg
  rw [← hlim, ← hper] at hag ⊢
  have hrun := hu.steps_never_answered hcount hag
  rw [← steps_succ hsend, Nat.add_comm] at hrun
  refine ⟨_, hrun, ?_⟩
  simp [sendFailed, State.atExpiry, State.retransmitted, inFlight, copies, htx, hseq, hcount, hconn]

end Sys2Proof.Machine
end

section
/-! PROOFS. The receiver: RECEIVE in P_IDLE, and what the closing TERM of an I frame comes to (R250 to R262, R270). -/

namespace Sys2Proof.Machine

/-! ### RECEIVE in P_IDLE -/

theorem exec_receiveCmd_refused {s : State} (hp : s.phase = .idle) (h : s.connState ≠ .opened) :
    exec .receiveCmd s = .next (badCommand s) := by
  simp [exec, execReceive, hp, runReceive, State.isOpen, h]

/-- Settles O14: both branches of R250. -/
theorem receiveStartsScanning : Obligations.ReceiveStartsScanning :=
  fun _ hp => ⟨exec_receiveCmd_refused hp, exec_receiveCmd_of_open hp⟩

/-! ### The closing TERM -/

/-- A body with no room for its BCC2, or with no byte at all, is dropped (R259). -/
theorem endOfFrame_malformed {s : State} (h : s.bodyMalformed = true) :
    endOfFrame s = .next { s with recState := .idle } := by
  simp [endOfFrame, h]

theorem Stored.bodyMalformed_of_too_long {d : List Byte} {s w : State} (h : Stored d s w) (h0 : s.rxLen = 0)
    (hd : s.cfgMaxPayload + 1 < d.length) : w.bodyMalformed = true := by
  simp [State.bodyMalformed, h.rxOvf, h0, hd]

theorem Stored.bodyMalformed_of_nil {s w : State} (h : Stored [] s w) (h0 : s.rxLen = 0) : w.bodyMalformed = true := by
  simp [State.bodyMalformed, h.rxLen, h0]

/-- A body that fits is judged by its BCC2 first, then by its bit (R259, D8). -/
theorem endOfFrame_of_fits {p : List Byte} {x : Byte} {s w : State} (h : Stored (p ++ [x]) s w) (h0 : s.rxLen = 0)
    (hl : p.length ≤ s.cfgMaxPayload) (hm : s.cfgMaxPayload ≤ s.bufSize) (ho : s.rxOvf = false) :
    endOfFrame w = .next (if xorFold p = x then
      if s.rxSeq = s.expectedSeq then acceptFrame w else ackDuplicate w
      else rejectFrame w) := by
  have hw := h.eq_of_fits h0 hl
  have hlen : w.rxLen - 1 = p.length := by rw [hw]; rfl
  have hwell : w.bodyMalformed = false := by rw [hw]; simp [State.bodyMalformed, ho]
  have hdup : w.isDuplicate = decide (s.rxSeq ≠ s.expectedSeq) := by rw [hw]; rfl
  simp only [endOfFrame, hwell, hlen, h.rxBytes_payload h0 hl hm, h.rxRead_bcc2 h0 hl hm, bcc2Matches, hdup]
  by_cases hx : xorFold p = x
  · by_cases hn : s.rxSeq = s.expectedSeq <;> simp [hx, hn]
  · simp [hx]

theorem endOfFrame_rejects {p : List Byte} {x : Byte} {s w : State} (h : Stored (p ++ [x]) s w) (h0 : s.rxLen = 0)
    (hl : p.length ≤ s.cfgMaxPayload) (hm : s.cfgMaxPayload ≤ s.bufSize) (ho : s.rxOvf = false) (hx : xorFold p ≠ x) :
    endOfFrame w = .next (rejectFrame w) := by
  rw [endOfFrame_of_fits h h0 hl hm ho, if_neg hx]

theorem endOfFrame_duplicate {p : List Byte} {s w : State} (h : Stored (p ++ [xorFold p]) s w) (h0 : s.rxLen = 0)
    (hl : p.length ≤ s.cfgMaxPayload) (hm : s.cfgMaxPayload ≤ s.bufSize) (ho : s.rxOvf = false)
    (hn : s.rxSeq ≠ s.expectedSeq) : endOfFrame w = .next (ackDuplicate w) := by
  rw [endOfFrame_of_fits h h0 hl hm ho, if_pos rfl, if_neg hn]

/-- The receiver after an I frame of bit n that fits and is answered without being delivered (R260, R261). -/
def State.answered (n : SeqBit) (len : Nat) (fold : Byte) (m : Memory) (reply : List Byte) (s : State) : State :=
  { s with
    txq := s.txq ++ reply, recState := .idle, recCtrl := C_I n, rxEsc := false, rxOvf := false, rxLen := len, rxSeq := n,
    rxXor := fold, rxBuf := m }

section
variable {n : SeqBit} {p : List Byte} {s : State} (hp : s.phase = .recv) (hr : s.recState = .idle ∨ s.recState = .termSeen)
  (hl : p.length ≤ s.cfgMaxPayload) (hm : s.cfgMaxPayload ≤ s.bufSize) (hw : s.writeFate = none)
include hp hr hl hm hw

theorem deliver_infoFrame_rejected {x : Byte} (hx : x ≠ xorFold p) :
    ∃ m : Memory,
      deliver ([TERM, ADDR, C_I n, bcc1 ADDR (C_I n)] ++ stuffList (p ++ [x]) ++ [TERM]) s =
        .next (s.answered n (p.length + 1) (xorFold p ^^^ x) m (rejBytes s.expectedSeq)) ∧
      ∀ i, memGet m i = if i < p.length + 1 then (p ++ [x])[i]? else memGet s.rxBuf i := by
  obtain ⟨w, hdeliver, hst⟩ := deliver_infoFrame n (p ++ [x]) hp hr hm
  have heq := hst.eq_of_fits rfl hl
  refine ⟨w.rxBuf, ?_, hst.get_of_fits rfl hl⟩
  rw [hdeliver, endOfFrame_rejects hst rfl hl hm rfl hx.symm, rejectFrame,
    transmit_none _ _ _ (by rw [heq]; exact hw), heq]
  simp [State.answered, enterBody, xorFold]

theorem deliver_infoFrame_duplicate (hn : s.expectedSeq ≠ n) :
    ∃ m : Memory,
      deliver ([TERM, ADDR, C_I n, bcc1 ADDR (C_I n)] ++ stuffList (p ++ [xorFold p]) ++ [TERM]) s =
        .next (s.answered n (p.length + 1) 0x00 m (rrBytes n)) ∧
      ∀ i, memGet m i = if i < p.length + 1 then (p ++ [xorFold p])[i]? else memGet s.rxBuf i := by
  obtain ⟨w, hdeliver, hst⟩ := deliver_infoFrame n (p ++ [xorFold p]) hp hr hm
  have heq := hst.eq_of_fits rfl hl
  have hseq : seqOf (C_I n) ≠ s.expectedSeq := by rw [seqOf_C_I]; exact hn.symm
  refine ⟨w.rxBuf, ?_, hst.get_of_fits rfl hl⟩
  rw [hdeliver, endOfFrame_duplicate hst rfl hl hm rfl hseq, ackDuplicate,
    transmit_none _ _ _ (by rw [heq]; exact hw), heq]
  simp [State.answered, enterBody, xorFold]

end

theorem exec_infoInstr (n : SeqBit) (p : List Byte) (s : State) : exec (infoInstr n p) s =
    deliver ([TERM, ADDR, C_I n, bcc1 ADDR (C_I n)] ++ stuffList (p ++ [xorFold p]) ++ [TERM]) s := by
  rw [exec_frame _ _ (isFrame_infoInstr n p), encodeWire_infoInstr, encodeI_eq]

/-- Settles O24: R262 in full. -/
theorem expectedInfoFrameIsAccepted : Obligations.ExpectedInfoFrameIsAccepted :=
  fun _ _ _ => exec_infoInstr_accepted

/-- Settles O25: the BCC2 matches and the bit is the other one. -/
theorem duplicateIsAcknowledgedNotDelivered : Obligations.DuplicateIsAcknowledgedNotDelivered := by
  intro n p s hp hr hn hl hm hw
  rw [exec_infoInstr]
  exact deliver_infoFrame_duplicate hp hr hl hm hw hn

/-- Settles O26: the bit is not looked at once the BCC2 is wrong. -/
theorem damagedInfoFrameIsRejected : Obligations.DamagedInfoFrameIsRejected :=
  fun _ _ _ _ hp hr hx hl hm hw => deliver_infoFrame_rejected hp hr hl hm hw hx

/-- An accepted frame leaves an idle block with the payload delivered (R262). -/
theorem exec_infoInstr_delivers {n : SeqBit} {p : List Byte} {s : State} (hp : s.phase = .recv)
    (hr : s.recState = .idle ∨ s.recState = .termSeen) (hn : s.expectedSeq = n) (hl : p.length ≤ s.cfgMaxPayload)
    (hm : s.cfgMaxPayload ≤ s.bufSize) (hw : s.writeFate = none) :
    ∃ t, exec (infoInstr n p) s = .next t ∧ t.delivered = some p ∧ t.expectedSeq = 1 - n ∧
      t.txq = s.txq ++ rrBytes n ∧ t.phase = .idle ∧ t.connState = s.connState ∧ t.cfgMaxPayload = s.cfgMaxPayload ∧
      t.bufSize = s.bufSize ∧ t.writeFate = none := by
  obtain ⟨m, haccept, hget⟩ := exec_infoInstr_accepted hp hr hn hl hm hw
  have hpay : ∀ j, j < p.length → memGet m j = p[j]? := fun j hj => by
    rw [hget, if_pos (by omega), List.getElem?_append_left hj]
  exact ⟨_, haccept, delivered_eq_some rfl rfl rfl (hl.trans hm) hpay, rfl, rfl, rfl, rfl, rfl, rfl, hw⟩

/-- A frame with the other bit that meets the next RECEIVE is acknowledged, and the block goes on scanning (R250, R261). -/
theorem exec_receiveCmd_then_duplicate {n : SeqBit} {p : List Byte} {t : State} (hp : t.phase = .idle)
    (hc : t.connState = .opened) (hn : t.expectedSeq ≠ n) (hl : p.length ≤ t.cfgMaxPayload)
    (hm : t.cfgMaxPayload ≤ t.bufSize) (hw : t.writeFate = none) :
    ∃ u v, exec .receiveCmd t = .next u ∧ exec (infoInstr n p) u = .next v ∧ v.txq = t.txq ++ rrBytes n ∧
      v.phase = .recv ∧ v.resultValid = false ∧ v.expectedSeq = t.expectedSeq ∧ v.recState = .idle := by
  obtain ⟨m, hagain, -⟩ := duplicateIsAcknowledgedNotDelivered n p
    { t with resultValid := false, retryCount := 0, recState := .idle, phase := .recv } rfl (.inl rfl) hn hl hm hw
  exact ⟨_, _, exec_receiveCmd_of_open hp hc, hagain, rfl, rfl, rfl, rfl, rfl⟩

theorem one_sub_seq_ne (n : SeqBit) : 1 - n ≠ n := by
  revert n; decide

/-- Settles O29: once a frame has been accepted its own bit is the other one. -/
theorem lostAckCausesNoSecondDelivery : Obligations.LostAckCausesNoSecondDelivery := by
  intro n p s hp hc hr hn hl hm hw
  obtain ⟨t, haccept, hdelivered, hflip, htx, hidle, hconn, hmax, hbuf, hwrite⟩ :=
    exec_infoInstr_delivers hp hr hn hl hm hw
  obtain ⟨u, v, hreceive, hagain, hv, hrecv, hinvalid, hseq, hscan⟩ :=
    exec_receiveCmd_then_duplicate hidle (hconn.trans hc) (hflip ▸ one_sub_seq_ne n) (hmax ▸ hl) (by omega) hwrite
  exact ⟨t, u, v, haccept, hdelivered, hflip, hreceive, hagain, by rw [hv, htx], hrecv, hinvalid,
    by simp [State.delivered, hinvalid], hseq.trans hflip, hscan⟩

/-! ### Malformed frames -/

section
variable {s : State} (hp : s.phase = .recv) (hr : s.recState = .body)
include hp hr

theorem rxByte_of_body (b : Byte) : rxByte b s = rxBody b s := by
  simp [rxByte, hp, rxRecv, hr]

/-- An ESC just before the closing TERM abandons the frame (R257). -/
theorem rxByte_term_after_esc (he : s.rxEsc = true) :
    rxByte TERM s = .next { s with rxEsc := false, recState := .idle } := by
  simp [rxByte_of_body hp hr, rxBody, he]

theorem rxByte_term_ends_body (he : s.rxEsc = false) : rxByte TERM s = endOfFrame s := by
  simp [rxByte_of_body hp hr, rxBody, he]

end

/-- Settles O27: the wrong BCC1 is the recognizer's, the ESC is the body's, the other two are malformed at their closing TERM. -/
theorem malformedFramesAreDroppedInSilence : Obligations.MalformedFramesAreDroppedInSilence := by
  intro s hp
  refine ⟨fun b hs hb => rxByte_wrong_bcc1 (by simp [hp]) hs hb, rxByte_term_after_esc hp, fun hr he h0 => ?_,
    fun n d hr hd hm => ?_⟩
  · rw [rxByte_term_ends_body hp hr he, endOfFrame_malformed (by simp [State.bodyMalformed, h0])]
  · obtain ⟨w, hdeliver, hst⟩ := deliver_infoFrame n d hp hr hm
    refine ⟨w.rxBuf, ?_, fun i => ?_⟩
    · rw [hdeliver, endOfFrame_malformed (hst.bodyMalformed_of_too_long rfl hd), hst.eq]
      simp [enterBody, hd, Nat.min_eq_right hd.le]
    · have hget := hst.get i
      simpa [enterBody, Nat.min_eq_right hd.le] using hget

end Sys2Proof.Machine
end

section
/-! PROOFS. The streaming receiver and the pure decoder agree on the bytes from an opening TERM to the next one (R127, R251,
R259, R272). -/

namespace Sys2Proof

/-! ### What `Decode` says of them (R127) -/

/-- Destuffing fails only at an ESC that nothing follows (R121). -/
theorem destuffList_eq_error {w : List Byte} {e : DecodeError} (h : destuffList w = .error e) :
    e = .framingError ∧ ∃ u d, w = u ++ [ESC] ∧ destuffList u = .ok d := by
  fun_induction destuffList w with
  | case1 => simp at h
  | case2 => exact ⟨by simpa using h.symm, [], [], rfl, rfl⟩
  | case3 => simp at h
  | case4 x r e' he ih =>
    obtain ⟨rfl, u, d, rfl, hu⟩ := ih (he.trans h)
    exact ⟨rfl, ESC :: x :: u, (x ^^^ STUFF_XOR) :: d, rfl, destuffList_esc_cons hu⟩
  | case5 => simp at h
  | case6 b r hb e' he ih =>
    obtain ⟨rfl, u, d, rfl, hu⟩ := ih (he.trans h)
    exact ⟨rfl, b :: u, b :: d, rfl, destuffList_cons_of_ne_esc hb hu⟩

theorem decodeBytes_of_body {a c k : Byte} {body : List Byte} (ha : a ≠ TERM) (hb : TERM ∉ body) :
    decodeBytes (TERM :: a :: c :: k :: body ++ [TERM]) =
      if k ≠ bcc1 a c then .error .badChecksum
      else if kind c = none then .error .framingError
      else checkFrame a c body := by
  simp only [decodeBytes, List.cons_append, decodeFrame_cons _ _ _ _ ha, splitTerm_append body [] hb]
  split_ifs
  · rfl
  · rfl
  · cases checkFrame a c body <;> rfl

theorem checkBody_concat (a c x : Byte) (p : List Byte) : checkBody a c (p ++ [x]) =
    if xorFold p = x then .ok ⟨a, c, some p⟩ else .error .badChecksum := by
  simp [checkBody]

theorem checkFrame_of_not_isI {a c : Byte} (body : List Byte) (hc : isI c = false) :
    checkFrame a c body = if body = [] then .ok ⟨a, c, none⟩ else .error .framingError := by
  simp [checkFrame, hc]

theorem address_of_checkFrame {a c : Byte} {body : List Byte} {f : Frame} (h : checkFrame a c body = .ok f) :
    f.address = a := by
  unfold checkFrame checkBody at h
  split at h
  · split at h
    · cases h
    · split at h
      · cases h
      · split at h <;> cases h
        rfl
  · split at h <;> cases h
    rfl

/-- Bytes that are no I frame at ADDR by their header decode to no such frame, and not because of their BCC2. -/
theorem decodeBytes_of_no_infoHeader {a c k : Byte} {body : List Byte} (ha : a ≠ TERM) (hb : TERM ∉ body)
    (hh : ¬(a = ADDR ∧ isI c = true ∧ k = bcc1 a c)) :
    (∀ p, decodeBytes (TERM :: a :: c :: k :: body ++ [TERM]) ≠ .ok ⟨ADDR, c, some p⟩) ∧
      (decodeBytes (TERM :: a :: c :: k :: body ++ [TERM]) = .error .badChecksum → a = ADDR → k ≠ bcc1 a c) := by
  rw [decodeBytes_of_body ha hb]
  by_cases hk : k = bcc1 a c
  · rw [if_neg (by simp [hk])]
    by_cases haddr : a = ADDR
    · have hc : isI c = false := by simpa [haddr, hk] using hh
      rw [checkFrame_of_not_isI body hc]
      split_ifs <;> simp
    · refine ⟨fun p h => haddr ?_, fun _ e => absurd e haddr⟩
      split_ifs at h
      exact (address_of_checkFrame h).symm
  · simp [hk]

section
variable (n : SeqBit) {body : List Byte} (hb : TERM ∉ body)
include hb

theorem decodeBytes_of_infoHeader :
    decodeBytes (TERM :: ADDR :: C_I n :: bcc1 ADDR (C_I n) :: body ++ [TERM]) = checkFrame ADDR (C_I n) body := by
  have hi : isI (C_I n) = true := (isI_iff _).2 ⟨n, rfl⟩
  rw [decodeBytes_of_body (by decide) hb, if_neg (by simp), if_neg (kind_ne_none_of_isI hi)]

theorem decodeBytes_of_destuffs {d : List Byte} (hd : destuffList body = .ok d) :
    decodeBytes (TERM :: ADDR :: C_I n :: bcc1 ADDR (C_I n) :: body ++ [TERM]) = checkBody ADDR (C_I n) d := by
  rw [decodeBytes_of_infoHeader n hb, checkFrame, if_pos ((isI_iff _).2 ⟨n, rfl⟩)]
  simp only [hd]

theorem decodeBytes_of_unfinished {e : DecodeError} (hd : destuffList body = .error e) :
    decodeBytes (TERM :: ADDR :: C_I n :: bcc1 ADDR (C_I n) :: body ++ [TERM]) = .error e := by
  rw [decodeBytes_of_infoHeader n hb, checkFrame, if_pos ((isI_iff _).2 ⟨n, rfl⟩)]
  simp only [hd]

end

end Sys2Proof

namespace Sys2Proof.Machine

/-! ### A body in any spelling -/

section
variable {s : State} (h : s.InBody)
include h

theorem State.InBody.rxByte_esc : rxByte ESC s = .next { s with rxEsc := true } := by
  have hterm : ESC ≠ TERM := by decide
  simp [rxByte_of_body h.phase h.recState, rxBody, h.rxEsc, escAfter, hterm]

theorem State.InBody.rxByte_escaped {x : Byte} (hx : x ≠ TERM) :
    rxByte x { s with rxEsc := true } = storeByte (x ^^^ STUFF_XOR) s := by
  have hself : { s with rxEsc := false } = s := by rw [← h.rxEsc]
  rw [rxByte_of_body (s := { s with rxEsc := true }) h.phase h.recState]
  simp only [rxBody, if_true, if_neg hx, hself]

theorem State.InBody.rxByte_plain {b : Byte} (hb : b ≠ TERM) (he : b ≠ ESC) : rxByte b s = storeByte b s := by
  simp [rxByte_of_body h.phase h.recState, rxBody, h.rxEsc, escAfter, hb, he]

theorem State.InBody.phase_ne_idle : s.phase ≠ .idle := by
  simp [h.phase]

theorem State.InBody.storeByte (d : Byte) : ∃ t, storeByte d s = .next t ∧ Stored [d] s t ∧ t.InBody := by
  obtain ⟨t, ht, hst⟩ := storeByte_stored d s h.lenBound h.maxFits
  exact ⟨t, ht, hst, hst.inBody h⟩

end

/-- Body bytes store what they destuff to, escapes of any byte included (R254, R255). -/
theorem deliver_destuffs {body d : List Byte} {s : State} (h : s.InBody) (ht : TERM ∉ body)
    (hd : destuffList body = .ok d) : ∃ t, deliver body s = .next t ∧ Stored d s t := by
  fun_induction destuffList body generalizing s d with
  | case1 =>
    obtain rfl : [] = d := by simpa using hd
    exact ⟨s, rfl, .refl s h.lenBound⟩
  | case2 | case4 | case6 => simp at hd
  | case3 x r d' hr ih =>
    obtain rfl : (x ^^^ STUFF_XOR) :: d' = d := by simpa using hd
    simp only [List.mem_cons, not_or] at ht
    obtain ⟨u, hu, hsu, hbu⟩ := h.storeByte (x ^^^ STUFF_XOR)
    obtain ⟨t, hdeliver, hst⟩ := ih hbu ht.2.2 hr
    refine ⟨t, ?_, hsu.trans hst⟩
    rw [deliver_cons _ _ s _ h.phase_ne_idle h.rxByte_esc,
      deliver_cons _ _ { s with rxEsc := true } u h.phase_ne_idle ((h.rxByte_escaped (Ne.symm ht.2.1)).trans hu), hdeliver]
  | case5 b r hb d' hr ih =>
    obtain rfl : b :: d' = d := by simpa using hd
    simp only [List.mem_cons, not_or] at ht
    obtain ⟨u, hu, hsu, hbu⟩ := h.storeByte b
    obtain ⟨t, hdeliver, hst⟩ := ih hbu ht.2 hr
    refine ⟨t, ?_, hsu.trans hst⟩
    rw [deliver_cons _ _ s u h.phase_ne_idle ((h.rxByte_plain (Ne.symm ht.1) hb).trans hu), hdeliver]

/-- A body that destuffs reaches its closing TERM with all of it stored. -/
theorem deliver_body_ends {body d : List Byte} {s : State} (h : s.InBody) (ht : TERM ∉ body)
    (hd : destuffList body = .ok d) : ∃ w, deliver (body ++ [TERM]) s = endOfFrame w ∧ Stored d s w := by
  obtain ⟨w, hw, hst⟩ := deliver_destuffs h ht hd
  have hb := hst.inBody h
  refine ⟨w, ?_, hst⟩
  rw [deliver_append _ _ _ w hw hb.phase_ne_idle, deliver_one _ _ hb.phase_ne_idle,
    rxByte_term_ends_body hb.phase hb.recState hb.rxEsc]

/-- Nothing came of the bytes: the block goes on receiving and has sent nothing. -/
def State.Silent (s t : State) : Prop := t.phase = .recv ∧ t.txq = s.txq

theorem Stored.silent {d : List Byte} {s w : State} (hst : Stored d s w) (hp : s.phase = .recv) (e : Bool) :
    s.Silent { w with rxEsc := e, recState := .idle } := by
  rw [hst.eq]
  exact ⟨hp, rfl⟩

/-- A body that ends in an ESC is abandoned at its closing TERM (R257). -/
theorem deliver_body_unfinished {body : List Byte} {e : DecodeError} {s : State} (h : s.InBody) (ht : TERM ∉ body)
    (hd : destuffList body = .error e) : ∃ t, deliver (body ++ [TERM]) s = .next t ∧ s.Silent t := by
  obtain ⟨-, u, d, rfl, hu⟩ := destuffList_eq_error hd
  obtain ⟨w, hw, hst⟩ := deliver_destuffs h (fun hm => ht (List.mem_append_left _ hm)) hu
  have hb := hst.inBody h
  refine ⟨_, ?_, hst.silent h.phase false⟩
  rw [List.append_assoc, deliver_append _ _ _ w hw hb.phase_ne_idle, List.singleton_append,
    deliver_cons _ _ w _ hb.phase_ne_idle hb.rxByte_esc, deliver_one _ { w with rxEsc := true } hb.phase_ne_idle]
  exact rxByte_term_after_esc (s := { w with rxEsc := true }) hb.phase hb.recState rfl

theorem endOfFrame_silent {d : List Byte} {s w : State} (hst : Stored d s w) (hp : s.phase = .recv)
    (hm : w.bodyMalformed = true) : ∃ t, endOfFrame w = .next t ∧ s.Silent t :=
  ⟨_, endOfFrame_malformed hm, hst.silent hp w.rxEsc⟩

/-! ### The three answers at the closing TERM -/

/-- The frame is acknowledged with its own bit, and delivered exactly if that bit is the expected one (R261, R262). -/
def State.Acknowledges (n : SeqBit) (p : List Byte) (s t : State) : Prop :=
  t.rxBytes p.length = some p ∧ t.rxSeq = n ∧ t.txq = s.txq ++ rrBytes n ∧
    if n = s.expectedSeq then t.phase = .idle ∧ t.delivered = some p else t.phase = .recv ∧ t.resultValid = s.resultValid

/-- Body as the header of an I frame of bit n enters it (R253). -/
def State.entered (n : SeqBit) (s : State) : State := enterBody { s with recState := .ctrlSeen, recCtrl := C_I n }

theorem State.entered_rxSeq (n : SeqBit) (s : State) : (s.entered n).rxSeq = n := seqOf_C_I n

theorem State.entered_inBody (n : SeqBit) {s : State} (hp : s.phase = .recv) (hm : s.cfgMaxPayload ≤ s.bufSize) :
    (s.entered n).InBody :=
  ⟨hp, rfl, rfl, Nat.zero_le _, hm⟩

section
variable {n : SeqBit} {p : List Byte} {s w : State} (hp : s.phase = .recv) (hl : p.length ≤ s.cfgMaxPayload)
  (hm : s.cfgMaxPayload ≤ s.bufSize) (hw : s.writeFate = none)
include hp hl hm hw

theorem endOfFrame_acknowledges (hst : Stored (p ++ [xorFold p]) (s.entered n) w) :
    ∃ t, endOfFrame w = .next t ∧ s.Acknowledges n p t := by
  have heq := hst.eq_of_fits rfl hl
  have hrun := hst.rxBytes_payload rfl hl hm
  have hwrite : w.writeFate = none := by rw [heq]; exact hw
  have hseq : w.rxSeq = n := by rw [heq]; exact s.entered_rxSeq n
  have hexp : w.expectedSeq = s.expectedSeq := by rw [heq]; rfl
  have htxq : w.txq = s.txq := by rw [heq]; rfl
  by_cases hn : n = s.expectedSeq
  · have hlen : w.rxLen - 1 = p.length := by rw [heq]; rfl
    refine ⟨_, endOfFrame_accepts hst rfl hl hm rfl ((s.entered_rxSeq n).trans hn), ?_⟩
    rw [acceptFrame, transmit_none _ _ _ hwrite, State.Acknowledges, if_pos hn]
    refine ⟨hrun, hseq, by simp [htxq, hexp, hn], rfl, ?_⟩
    simp only [State.delivered, hlen]
    exact hrun
  · refine ⟨_, endOfFrame_duplicate hst rfl hl hm rfl ((s.entered_rxSeq n).trans_ne hn), ?_⟩
    rw [ackDuplicate, transmit_none _ _ _ hwrite, State.Acknowledges, if_neg hn]
    exact ⟨hrun, hseq, by simp [htxq, hseq], by rw [heq]; exact hp, by rw [heq]; rfl⟩

theorem endOfFrame_sends_rej {x : Byte} (hst : Stored (p ++ [x]) (s.entered n) w) (hx : xorFold p ≠ x) :
    ∃ t, endOfFrame w = .next t ∧ t.phase = .recv ∧ t.txq = s.txq ++ rejBytes s.expectedSeq := by
  have heq := hst.eq_of_fits rfl hl
  refine ⟨_, endOfFrame_rejects hst rfl hl hm rfl hx, ?_⟩
  rw [rejectFrame, transmit_none _ _ _ (by rw [heq]; exact hw), heq]
  exact ⟨hp, rfl⟩

end

/-! ### The header -/

theorem isI_of_mem_keyInfo {c : Byte} (h : c ∈ keyInfo) : isI c = true := by
  simp only [keyInfo, List.mem_cons, List.not_mem_nil, or_false] at h
  exact (isI_iff c).2 (h.elim (⟨0, ·⟩) (⟨1, ·⟩))

section
variable {s : State} (hp : s.phase = .recv) (hr : s.recState = .idle)
include hp hr

/-- From its first wrong header byte on a frame is skipped up to its closing TERM (R153 to R155, R253). -/
theorem deliver_no_infoHeader {a c k : Byte} {body : List Byte} (ha : a ≠ TERM) (hc : c ≠ TERM) (hk : k ≠ TERM)
    (hb : TERM ∉ body) (hh : ¬(a = ADDR ∧ isI c = true ∧ k = bcc1 a c)) :
    ∃ t, deliver (TERM :: a :: c :: k :: body ++ [TERM]) s = .next t ∧ s.Silent t := by
  have hi : s.phase ≠ .idle := by simp [hp]
  have hkb : TERM ∉ k :: body := by simp [hk.symm, hb]
  by_cases haddr : a = ADDR
  · subst haddr
    by_cases hkey : c ∈ keyInfo
    · have hbcc : k ≠ bcc1 ADDR c := fun e => hh ⟨rfl, isI_of_mem_keyInfo hkey, e⟩
      have hctrl : rxByte c { s with recState := .addrSeen } = .next { s with recState := .ctrlSeen, recCtrl := c } := by
        rw [rxByte_recvScan c { s with recState := .addrSeen } hp (by simp)]
        simp [recStep, recNext, hkey]
      refine ⟨{ s with recState := .termSeen, recCtrl := c }, ?_, hp, rfl⟩
      simp only [List.cons_append]
      rw [deliver_cons _ _ s _ hi (rxByte_idle_term s hi hr),
        deliver_cons _ _ { s with recState := .termSeen } _ hi
          (rxByte_address (s := { s with recState := .termSeen }) hp rfl),
        deliver_cons _ _ { s with recState := .addrSeen } _ hi hctrl,
        deliver_cons _ _ { s with recState := .ctrlSeen, recCtrl := c } _ hi
          (rxByte_wrong_bcc1 (s := { s with recState := .ctrlSeen, recCtrl := c }) hi rfl hbcc)]
      exact deliver_skip_to_term (s := { s with recState := .idle, recCtrl := c }) hi rfl hb
    · exact ⟨_, deliver_not_awaited hi (.inl hr) (by simpa [keyOf, hp] using hkey) hkb, hp, rfl⟩
  · have haddress : rxByte a { s with recState := .termSeen } = .next { s with recState := .idle } := by
      rw [rxByte_recvScan a { s with recState := .termSeen } hp (by simp)]
      simp [recStep, recNext, ha, haddr]
    refine ⟨{ s with recState := .termSeen }, ?_, hp, rfl⟩
    rw [List.cons_append, List.cons_append, deliver_cons _ _ s _ hi (rxByte_idle_term s hi hr),
      deliver_cons _ _ { s with recState := .termSeen } _ hi haddress]
    exact deliver_skip_to_term (l := c :: k :: body) (s := { s with recState := .idle }) hi rfl (by simp [hc.symm, hkb])

theorem deliver_opens_body (n : SeqBit) (body : List Byte) :
    deliver (TERM :: ADDR :: C_I n :: bcc1 ADDR (C_I n) :: body ++ [TERM]) s =
      deliver (body ++ [TERM]) (s.entered n) := by
  have hi : s.phase ≠ .idle := by simp [hp]
  simp only [List.cons_append]
  rw [deliver_cons _ _ s _ hi (rxByte_idle_term s hi hr),
    deliver_infoHeader n _ (s := { s with recState := .termSeen }) hp rfl]
  rfl

end

/-- Settles O28: the header decides first, then destuffing, then the length of the body, then its BCC2. -/
theorem receiverAgreesWithTheDecoder : Obligations.ReceiverAgreesWithTheDecoder := by
  intro a c k body s hp hr hw hm ha hc hk hb
  by_cases hh : a = ADDR ∧ isI c = true ∧ k = bcc1 a c
  · obtain ⟨rfl, hi, rfl⟩ := hh
    obtain ⟨n, rfl⟩ := (isI_iff c).1 hi
    rw [deliver_opens_body hp hr, seqOf_C_I]
    have hin := State.entered_inBody n hp hm
    cases hd : destuffList body with
    | error e =>
      obtain ⟨rfl, -⟩ := destuffList_eq_error hd
      obtain ⟨t, ht, hrecv, htx⟩ := deliver_body_unfinished hin hb hd
      rw [decodeBytes_of_unfinished n hb hd]
      exact ⟨t, ht, .inr (.inr ⟨by simp, by simp, hrecv, htx⟩)⟩
    | ok d =>
      obtain ⟨w, hend, hst⟩ := deliver_body_ends hin hb hd
      rw [hend, decodeBytes_of_destuffs n hb hd]
      rcases List.eq_nil_or_concat d with rfl | ⟨p, x, rfl⟩
      · obtain ⟨t, ht, hrecv, htx⟩ := endOfFrame_silent hst hp (hst.bodyMalformed_of_nil rfl)
        exact ⟨t, ht, .inr (.inr ⟨by simp [checkBody], by simp [checkBody], hrecv, htx⟩)⟩
      · rw [List.concat_eq_append] at hst ⊢
        rw [checkBody_concat]
        by_cases hl : p.length ≤ s.cfgMaxPayload
        · by_cases hx : xorFold p = x
          · subst hx
            obtain ⟨t, ht, hack⟩ := endOfFrame_acknowledges hp hl hm hw hst
            exact ⟨t, ht, .inl ⟨p, by simp, hl, hack⟩⟩
          · obtain ⟨t, ht, hrecv, htx⟩ := endOfFrame_sends_rej hp hl hm hw hst hx
            exact ⟨t, ht, .inr (.inl ⟨by simp [hx], rfl, rfl, ⟨_, rfl, by simpa using hl⟩, hrecv, htx⟩)⟩
        · have hlong : s.cfgMaxPayload + 1 < (p ++ [x]).length := by simp; omega
          obtain ⟨t, ht, hrecv, htx⟩ := endOfFrame_silent hst hp (hst.bodyMalformed_of_too_long rfl hlong)
          refine ⟨t, ht, .inr (.inr ⟨fun q hq => ?_, fun _ _ _ d hd => ?_, hrecv, htx⟩)⟩
          · split_ifs at hq
            obtain rfl : p = q := by simpa using hq
            omega
          · obtain rfl : p ++ [x] = d := by simpa using hd
            exact hlong
  · obtain ⟨t, ht, hrecv, htx⟩ := deliver_no_infoHeader hp hr ha hc hk hb hh
    obtain ⟨hok, hbad⟩ := decodeBytes_of_no_infoHeader ha hb hh
    exact ⟨t, ht, .inr (.inr ⟨fun p e => absurd e (hok p), fun e e' e'' => absurd e'' (hbad e e'), hrecv, htx⟩)⟩

end Sys2Proof.Machine
end

section
/-! PROOFS. The optional test channel (R290 to R294, D31): a byte through both error classes, draws that all miss, and a frame whose
header holds one inverted bit. -/

namespace Sys2Proof.Machine

/-! ### One byte through both classes (R290) -/

/-- Outside Body a byte meets the header class only. -/
theorem passByte_outside {c : TestChannel} {st : RecState} {b : Byte} (hs : st ≠ .body) :
    passByte c st b = passHeader c st b :=
  passPayload_outside _ st _ hs

/-- In Body a byte meets the payload class only, and is no byte of a triplet. -/
theorem passByte_body (c : TestChannel) (b : Byte) : passByte c .body b = passPayload { c with pos := none } .body b := by
  simp [passByte, passHeader]

theorem passByte_cases (c : TestChannel) (st : RecState) (b : Byte) :
    (passByte c st b).1 = b ∨ ∃ j, j < 8 ∧ (passByte c st b).1 = flipBit b j := by
  by_cases hs : st = .body
  · subst hs
    rw [passByte_body]
    exact (passPayload_cases _ .body b).imp id And.right
  · rw [passByte_outside hs]
    exact (passHeader_cases c st b).imp id And.right

theorem passByte_term {c : TestChannel} {st : RecState} (hs : st ≠ .body) :
    passByte c st TERM = (TERM, { c with pos := if st = .bccSeen then none else some .address }) := by
  simp [passByte_outside hs, passHeader, hs]

theorem passByte_triplet {c : TestChannel} {st : RecState} {b : Byte} {p : HeaderPos} (hs : st ≠ .body) (hb : b ≠ TERM)
    (hp : c.pos = some p) (hf : p.fits b = true) :
    passByte c st b = (hitByte (drawFrame c p).hit p b, { drawFrame c p with pos := p.next b }) := by
  rw [passByte_outside hs, passHeader_triplet c st b p hs hb hp hf]

theorem passByte_misfit {c : TestChannel} {st : RecState} {b : Byte} {p : HeaderPos} (hs : st ≠ .body) (hb : b ≠ TERM)
    (hp : c.pos = some p) (hf : p.fits b = false) : passByte c st b = (b, { c with pos := none }) := by
  rw [passByte_outside hs, passHeader_misfit c st b p hs hb hp hf]

/-- No control byte of the table is TERM, and none has TERM as its BCC1 under ADDR: either would be taken as an opening TERM. -/
theorem ne_term_of_kind_ne_none {x : Byte} (hx : kind x ≠ none) : x ≠ TERM ∧ bcc1 ADDR x ≠ TERM := by
  refine ⟨?_, fun h => hx ?_⟩
  · rintro rfl
    exact hx (by decide)
  · have hxor : x = ADDR ^^^ TERM := by rw [← h, bcc1, ← BitVec.xor_assoc, BitVec.xor_self, BitVec.zero_xor]
    subst hxor
    decide

/-! ### Draws that all miss -/

/-- Every draw that is made, and the one of the frame in flight, is a miss. -/
structure TestChannel.Misses (c : TestChannel) : Prop where
  frameDraws : ∀ d ∈ c.frameDraws, d = none
  byteDraws : ∀ d ∈ c.byteDraws, d = none
  hit : c.hit = none

theorem head?_join_eq_none {α : Type} {l : List (Option α)} (h : ∀ d ∈ l, d = none) : l.head?.join = none := by
  cases l with
  | nil => rfl
  | cons d r => exact h d (List.mem_cons_self ..)

section
variable {c : TestChannel} (h : c.Misses)
include h

theorem TestChannel.Misses.withPos (q : Option HeaderPos) : { c with pos := q }.Misses :=
  ⟨h.frameDraws, h.byteDraws, h.hit⟩

theorem TestChannel.Misses.drawFrame (p : HeaderPos) : (drawFrame c p).Misses := by
  cases p with
  | address =>
    exact ⟨fun d hd => h.frameDraws d (List.mem_of_mem_tail hd), h.byteDraws, head?_join_eq_none h.frameDraws⟩
  | control | bcc => exact h

theorem TestChannel.Misses.passHeader (st : RecState) (b : Byte) :
    (passHeader c st b).1 = b ∧ (passHeader c st b).2.Misses := by
  by_cases hs : st = .body
  · simp [Machine.passHeader, hs, h.withPos]
  by_cases hb : b = TERM
  · simp [Machine.passHeader, hs, hb, h.withPos]
  cases hp : c.pos with
  | none => simp [passHeader_outside c st b hs hb hp, h]
  | some p =>
    cases hf : p.fits b with
    | true =>
      rw [passHeader_triplet c st b p hs hb hp hf, (h.drawFrame p).hit]
      exact ⟨rfl, (h.drawFrame p).withPos _⟩
    | false =>
      rw [passHeader_misfit c st b p hs hb hp hf]
      exact ⟨rfl, h.withPos none⟩

theorem TestChannel.Misses.passPayload (st : RecState) (b : Byte) :
    (passPayload c st b).1 = b ∧ (passPayload c st b).2.Misses := by
  by_cases hs : st = .body
  · simp only [Machine.passPayload, hs, if_pos, head?_join_eq_none h.byteDraws, true_and]
    exact ⟨h.frameDraws, fun d hd => h.byteDraws d (List.mem_of_mem_tail hd), h.hit⟩
  · rw [passPayload_outside c st b hs]
    exact ⟨rfl, h⟩

theorem TestChannel.Misses.passByte (st : RecState) (b : Byte) :
    (passByte c st b).1 = b ∧ (passByte c st b).2.Misses := by
  obtain ⟨hb, hh⟩ := h.passHeader st b
  obtain ⟨hb', hp⟩ := hh.passPayload st (Machine.passHeader c st b).1
  exact ⟨hb'.trans hb, hp⟩

end

/-! ### A frame whose header holds one inverted bit (R294) -/

/-- The bit k lies in exactly one byte of the triplet: it is inverted there, and the other two bytes are unchanged. -/
theorem headerFlip_hits_one (k : Fin 24) (x : Byte) : ∃ j, j < 8 ∧
    (((∀ b, headerFlip k .address b = flipBit b j) ∧ (∀ b, headerFlip k .control b = b) ∧ ∀ b, headerFlip k (.bcc x) b = b) ∨
     ((∀ b, headerFlip k .address b = b) ∧ (∀ b, headerFlip k .control b = flipBit b j) ∧ ∀ b, headerFlip k (.bcc x) b = b) ∨
     ((∀ b, headerFlip k .address b = b) ∧ (∀ b, headerFlip k .control b = b) ∧
       ∀ b, headerFlip k (.bcc x) b = flipBit b j)) := by
  simp only [headerFlip]
  rcases (by omega : k.val < 8 ∨ (8 ≤ k.val ∧ k.val < 16) ∨ 16 ≤ k.val) with hk | hk | hk
  · exact ⟨7 - k.val, by omega, .inl ⟨fun _ => if_pos hk, fun _ => if_neg (by omega), fun _ => if_neg (by omega)⟩⟩
  · exact ⟨15 - k.val, by omega,
      .inr (.inl ⟨fun _ => if_neg (by omega), fun _ => if_pos hk, fun _ => if_neg (by omega)⟩)⟩
  · exact ⟨23 - k.val, by omega,
      .inr (.inr ⟨fun _ => if_neg (by omega), fun _ => if_neg (by omega), fun _ => if_pos hk⟩)⟩

/-- BccSeen is reached on the header of an ADDR frame with its own BCC1 only. -/
theorem recRun_idle_eq_bccSeen {K l : List Byte} {x : Byte} (h : (recRun K l (.idle, x)).1 = .bccSeen) :
    ∃ u c, l = u ++ [TERM, ADDR, c, bcc1 ADDR c] := by
  obtain ⟨hl, -⟩ := (HasRead.idle K [] x).recRun l
  rw [h] at hl
  obtain ⟨u, hu⟩ := hl
  exact ⟨u, _, hu.symm⟩

/-- Inverting one bit of the triplet breaks the address or the checksum equation, whichever byte holds the bit. -/
theorem headerFlip_ne_header (k : Fin 24) (c d : Byte) :
    ¬(headerFlip k .address ADDR = ADDR ∧ headerFlip k .control c = d ∧
      headerFlip k (.bcc c) (bcc1 ADDR c) = bcc1 ADDR d) := by
  rintro ⟨ha, rfl, hb⟩
  obtain ⟨j, hj, ⟨hA, -, -⟩ | ⟨-, hC, hB⟩ | ⟨-, hC, hB⟩⟩ := headerFlip_hits_one k c
  · exact flipBit_ne ADDR hj (by rw [← hA, ha])
  · rw [hB, hC, bcc1_flipBit_control] at hb
    exact flipBit_ne _ hj hb.symm
  · rw [hB, hC] at hb
    exact flipBit_ne _ hj hb

theorem recRun_headerFlip_ne_bccSeen (K : List Byte) (c x : Byte) (k : Fin 24) :
    (recRun K [TERM, headerFlip k .address ADDR, headerFlip k .control c, headerFlip k (.bcc c) (bcc1 ADDR c)]
      (.idle, x)).1 ≠ .bccSeen := by
  intro h
  obtain ⟨u, d, hu⟩ := recRun_idle_eq_bccSeen h
  obtain rfl : u = [] := List.length_eq_zero_iff.mp (by simpa using congrArg List.length hu)
  simp only [List.nil_append, List.cons.injEq, true_and, and_true] at hu
  exact headerFlip_ne_header k c d hu

/-- Settles O53: outside Body the header class decides alone and in Body the payload class; BccSeen is reached on a whole header
only, and one inverted bit of a header leaves none. -/
theorem testChannelFlipsAtMostOneBit : Obligations.TestChannelFlipsAtMostOneBit := by
  have haddr : ADDR ≠ TERM := by decide
  refine ⟨passByte_cases, fun c st b hf hb hh => ?_, fun c st hs => passByte_term hs, fun c st d r hs hp hd => ?_,
    fun c st x hs hx => ⟨fun hp => ?_, fun hp => ?_⟩,
    fun c st b hs hb => ⟨fun hp => ?_, fun hp ha => ?_, fun hp hk => ?_, fun x hp hx => ?_⟩,
    fun k b x => ⟨fun _ => rfl, rfl, rfl, rfl⟩, fun c b j r hd => ?_, fun _ _ c x k _ => recRun_headerFlip_ne_bccSeen _ c x k⟩
  · obtain ⟨hsame, hnext⟩ := TestChannel.Misses.passByte ⟨hf, hb, hh⟩ st b
    exact ⟨hsame, hnext.hit, hnext.frameDraws, hnext.byteDraws⟩
  · rw [passByte_triplet hs haddr hp (by simp [HeaderPos.fits])]
    simp [drawFrame, HeaderPos.next, hd]
  · rw [passByte_triplet hs (ne_term_of_kind_ne_none hx).1 hp (by simp [HeaderPos.fits, hx])]
    rfl
  · rw [passByte_triplet hs (ne_term_of_kind_ne_none hx).2 hp (by simp [HeaderPos.fits])]
    rfl
  · rw [passByte_outside hs, passHeader_outside c st b hs hb hp]
  · exact passByte_misfit hs hb hp (by simp [HeaderPos.fits, ha])
  · exact passByte_misfit hs hb hp (by simp [HeaderPos.fits, hk])
  · exact passByte_misfit hs hb hp (by simp [HeaderPos.fits, hx])
  · simp [passByte_body, passPayload, hd]

end Sys2Proof.Machine
end

section
/-! PROOFS. The exceptions: the ticks up to the Timeout rule, a refused command, and the ChErr event (R304, R316, R321). -/

namespace Sys2Proof.Machine

/-! ### Ticks -/

section
variable {s : State}

theorem tick_of_off (ha : s.timerArmed = false) : tick s = .next s := by
  simp [tick, ha]

theorem ticks_succ {n : Nat} {t : State} (h : tick s = .next t) : ticks (n + 1) s = ticks n t := by
  simp [ticks, h]

theorem ticks_one (s : State) : ticks 1 s = tick s := by
  unfold ticks
  cases tick s <;> rfl

/-- Ticks that do not exhaust the timer count it down, whatever ticks follow them. -/
theorem ticks_count_down {n : Nat} (k : Nat) (ha : s.timerArmed = true) (hn : n < max s.timerRemaining 1) :
    ticks (n + k) s = ticks k { s with timerRemaining := s.timerRemaining - n } := by
  induction n generalizing s with
  | zero => rw [Nat.zero_add, Nat.sub_zero]
  | succ n ih =>
    have hr : 1 < s.timerRemaining := by omega
    have hrest := ih (s := { s with timerRemaining := s.timerRemaining - 1 }) ha (by dsimp only; omega)
    rw [Nat.succ_add, ticks_succ (tick_counts ha hr), hrest, Nat.sub_sub, Nat.add_comm 1 n]

end

/-- Settles O30: all ticks of a period but the last count down, and the last finds the timer exhausted. -/
theorem tickCountsDownToTheTimeout : Obligations.TickCountsDownToTheTimeout := by
  refine ⟨fun _ ha => tick_of_off ha, fun _ ha hr => tick_counts ha hr, fun s ha hr => ?_,
    fun s n hn => ticks_count_down (s := arm s) 0 rfl hn, fun s => ?_⟩
  · rw [tick_expires ha hr]
    refine ⟨fun hp => ?_, fun hp => ?_, fun hp => ?_⟩ <;> simp [timeoutRule, hp, disarm]
  · obtain ⟨n, hn⟩ : ∃ n, s.period = n + 1 := ⟨max s.cfgTimeout 1 - 1, by rw [State.period]; omega⟩
    have hlast : s.cfgTimeout - n ≤ 1 := by rw [State.period] at hn; omega
    have hcount := ticks_count_down (s := arm s) (n := n) 1 rfl (show n < s.period by omega)
    rw [hn, Nat.add_sub_cancel, hcount, ticks_one]
    exact tick_expires rfl hlast

/-! ### A refused command -/

/-- In P_IDLE with the timer off Post changes the result record alone (R14, R304). -/
theorem badCommand_of_idle {s : State} (hp : s.phase = .idle) (ha : s.timerArmed = false) : badCommand s = { s with
    resultValid := true, result := .badCommand, resultRetries := s.retryCount, resultLen := 0 } := by
  rw [badCommand, post, ← hp, ← ha]

/-- Settles O15: each command refused in P_IDLE is a BadCommand there. -/
theorem badCommandChangesNothingElse : Obligations.BadCommandChangesNothingElse := by
  intro s hp ha
  rw [← badCommand_of_idle hp ha]
  exact ⟨fun _ h => exec_openCmd_refused hp (not_and_or.mpr (h.imp_right Nat.not_le.mpr)),
    fun _ h => exec_sendCmd_refused hp (not_and_or.mpr (h.imp_right Nat.not_le.mpr)),
    exec_receiveCmd_refused hp, exec_closeCmd_refused hp⟩

/-! ### The ChErr event -/

/-- Settles O36: the next event is ChErr, which is the channel error in a running operation and nothing in P_IDLE. -/
theorem channelErrorClosesTheConnection : Obligations.ChannelErrorClosesTheConnection := by
  intro s rest ha
  rw [step_of_agenda_cons ha]
  exact ⟨fun hp => congrArg _ (if_neg hp), fun hp => congrArg _ (if_pos hp)⟩

end Sys2Proof.Machine
end

section
/-! PROOFS. The two outcomes of a rule that transmits: what it does when the write succeeds, and what is left of that when the
write fails (R317). -/

namespace Sys2Proof.Machine

/-! ### A rule under both choices -/

/-- The channel will fail the next write after n bytes. -/
def State.failing (n : Nat) (s : State) : State := { s with writeFate := some n }

section
variable (n : Nat) (s : State)

@[simp] theorem State.failing_phase : (s.failing n).phase = s.phase := rfl
@[simp] theorem State.failing_recState : (s.failing n).recState = s.recState := rfl
@[simp] theorem State.failing_cfgRole : (s.failing n).cfgRole = s.cfgRole := rfl
@[simp] theorem State.failing_rxq : (s.failing n).rxq = s.rxq := rfl
@[simp] theorem State.failing_port : (s.failing n).port = s.port := rfl
@[simp] theorem State.failing_testChannel : (s.failing n).testChannel = s.testChannel := rfl
@[simp] theorem State.failing_bufSize : (s.failing n).bufSize = s.bufSize := rfl
@[simp] theorem State.failing_txBuf : (s.failing n).txBuf = s.txBuf := rfl
@[simp] theorem State.failing_rxBuf : (s.failing n).rxBuf = s.rxBuf := rfl
@[simp] theorem State.failing_rxLen : (s.failing n).rxLen = s.rxLen := rfl
@[simp] theorem State.failing_txPayload : (s.failing n).txPayload = s.txPayload := rfl
@[simp] theorem State.failing_rxBytes (k : Nat) : (s.failing n).rxBytes k = s.rxBytes k := rfl
@[simp] theorem State.failing_rxRead (i : Nat) : (s.failing n).rxRead i = s.rxRead i := rfl

end

def State.seqs (s : State) : SeqBit × SeqBit := (s.nextSeq, s.expectedSeq)

/-- How r, where the write succeeds, and r', where it fails after n bytes, differ, with the queue q and the sequence bits before
the Tx: r sends nothing and r' is the same, or r sends a frame and r' is the channel error after the first n bytes of it. -/
def FailsAs (n : Nat) (q : List Byte) (bits : SeqBit × SeqBit) (r r' : Res) : Prop :=
  Leads (fun t => (t.txq = q ∧ r' = .next (t.failing n)) ∨ ∃ (f : List Byte) (v : State), IsWholeFrame f ∧
    t.txq = q ++ f ∧ v.seqs = bits ∧ r' = .next (channelError { v with txq := q ++ f.take n, writeFate := none })) r

theorem FailsAs.quiet {n : Nat} {q : List Byte} {bits : SeqBit × SeqBit} {t : State} (h : t.txq = q) :
    FailsAs n q bits (.next t) (.next (t.failing n)) := Leads.next (.inl ⟨h, rfl⟩)

theorem FailsAs.fault {n : Nat} {q : List Byte} {bits : SeqBit × SeqBit} {x : Fault} {r' : Res} :
    FailsAs n q bits (.fault x) r' := Leads.fault (f := x)

/-- The branch is chosen without looking at the choice of the channel. -/
theorem FailsAs.ite {n : Nat} {q : List Byte} {bits : SeqBit × SeqBit} {c : Prop} [Decidable c] {a b a' b' : Res}
    (ha : FailsAs n q bits a a') (hb : FailsAs n q bits b b') :
    FailsAs n q bits (if c then a else b) (if c then a' else b') := by
  by_cases h : c
  · rwa [if_pos h, if_pos h]
  · rwa [if_neg h, if_neg h]

section
variable {n : Nat} {s : State} (hw : s.writeFate = none)
include hw

/-- Tx is where the two choices part. -/
theorem transmit_failsAs {l : List Byte} {f : State → State} (hl : IsWholeFrame l)
    (hf : ∀ q, (f { s with txq := q }).txq = q) :
    FailsAs n s.txq s.seqs (.next (transmit l f s)) (.next (transmit l f (s.failing n))) := by
  rw [transmit_none l f s hw, transmit_some l f (s.failing n) n rfl]
  exact Leads.next (.inr ⟨l, s, hl, hf _, rfl, rfl⟩)

theorem sendFrame_failsAs : FailsAs n s.txq s.seqs (sendFrame s) (sendFrame (s.failing n)) := by
  unfold sendFrame
  rw [State.failing_txPayload]
  cases s.txPayload with
  | some p => exact transmit_failsAs hw (isWholeFrame_inFlight s p) fun _ => rfl
  | none => exact .fault

/-! ### A received byte -/

variable (b : Byte)

theorem rxOpenRWaitSet_failsAs : FailsAs n s.txq s.seqs (rxOpenRWaitSet b s) (rxOpenRWaitSet b (s.failing n)) :=
  .ite (transmit_failsAs (s := recStep keySet b s) hw isWholeFrame_uaBytes fun _ => rfl) (.quiet rfl)

theorem rxCloseIWaitDisc_failsAs : FailsAs n s.txq s.seqs (rxCloseIWaitDisc b s) (rxCloseIWaitDisc b (s.failing n)) :=
  .ite (transmit_failsAs (s := disarm (recStep keyDisc b s)) hw isWholeFrame_uaBytes fun _ => rfl) (.quiet rfl)

theorem rxCloseRWaitDisc_failsAs : FailsAs n s.txq s.seqs (rxCloseRWaitDisc b s) (rxCloseRWaitDisc b (s.failing n)) :=
  .ite (transmit_failsAs (s := recStep keyDisc b s) hw isWholeFrame_discBytes fun _ => rfl) (.quiet rfl)

/-- Only the REJ transmits (R225). -/
theorem rxSendWaitReply_failsAs : FailsAs n s.txq s.seqs (rxSendWaitReply b s) (rxSendWaitReply b (s.failing n)) :=
  .ite (.ite (.quiet rfl)
    (.ite (sendFrame_failsAs (s := disarm (recStep (keyReply s.nextSeq) b s)) hw) (.quiet rfl))) (.quiet rfl)

omit hw in
theorem storeByte_failsAs (d : Byte) : FailsAs n s.txq s.seqs (storeByte d s) (storeByte d (s.failing n)) := by
  unfold storeByte
  rw [State.failing_bufSize, State.failing_rxBuf, State.failing_rxLen]
  refine .ite ?_ (.quiet rfl)
  cases bufWrite (s.bufSize + 1) s.rxBuf s.rxLen d with
  | some m => exact .quiet rfl
  | none => exact .fault

/-- The end of an I frame transmits RR or REJ unless the frame is malformed (R259 to R262). -/
theorem endOfFrame_failsAs : FailsAs n s.txq s.seqs (endOfFrame s) (endOfFrame (s.failing n)) := by
  unfold endOfFrame
  rw [State.failing_rxLen, State.failing_rxBytes, State.failing_rxRead]
  refine .ite (.quiet rfl) ?_
  cases s.rxBytes (s.rxLen - 1) with
  | some p =>
    cases s.rxRead (s.rxLen - 1) with
    | some x =>
      exact .ite (.ite (transmit_failsAs hw (isWholeFrame_rrBytes _) fun _ => rfl)
        (transmit_failsAs hw (isWholeFrame_rrBytes _) fun _ => rfl))
        (transmit_failsAs hw (isWholeFrame_rejBytes _) fun _ => rfl)
    | none => exact .fault
  | none => exact .fault

theorem rxBody_failsAs : FailsAs n s.txq s.seqs (rxBody b s) (rxBody b (s.failing n)) :=
  .ite (.ite (.quiet rfl) (storeByte_failsAs (s := { s with rxEsc := false }) _))
    (.ite (endOfFrame_failsAs hw) (.ite (.quiet rfl) (storeByte_failsAs b)))

theorem rxRecv_failsAs : FailsAs n s.txq s.seqs (rxRecv b s) (rxRecv b (s.failing n)) := by
  unfold rxRecv
  rw [State.failing_recState]
  cases s.recState with
  | body => exact rxBody_failsAs hw b
  | ctrlSeen => exact .ite (.quiet rfl) (.quiet rfl)
  | idle | termSeen | addrSeen | bccSeen | done => exact .quiet rfl

/-- One received byte, in any phase. -/
theorem rxByte_failsAs : FailsAs n s.txq s.seqs (rxByte b s) (rxByte b (s.failing n)) := by
  unfold rxByte
  rw [State.failing_phase]
  cases s.phase with
  | idle => exact .quiet rfl
  | openIWaitUa => exact .ite (.quiet rfl) (.quiet rfl)
  | openRWaitSet => exact rxOpenRWaitSet_failsAs hw b
  | sendWaitReply => exact rxSendWaitReply_failsAs hw b
  | recv => exact rxRecv_failsAs hw b
  | closeIWaitDisc => exact rxCloseIWaitDisc_failsAs hw b
  | closeRWaitDisc => exact rxCloseRWaitDisc_failsAs hw b
  | closeRWaitUa => exact .ite (.quiet rfl) (.quiet rfl)

/-- The test channel on the path does not look at the choice either. -/
theorem consume_failsAs : FailsAs n s.txq s.seqs (consume b s) (consume b (s.failing n)) := by
  unfold consume
  rw [State.failing_testChannel]
  cases s.testChannel with
  | none => exact rxByte_failsAs hw b
  | some c => exact rxByte_failsAs (s := { s with testChannel := some (passByte c s.recState b).2 }) hw _

theorem eventRx_failsAs : FailsAs n s.txq s.seqs (eventRx s) (eventRx (s.failing n)) := by
  unfold eventRx
  rw [State.failing_rxq]
  cases s.rxq with
  | nil => exact .quiet rfl
  | cons b q => exact .ite (.quiet rfl) (consume_failsAs (s := { s with rxq := q }) hw b)

/-! ### Commands -/

/-- An accepted OPEN clears both sequence bits before its Tx (R180). -/
theorem execOpen_failsAs (c : OpenConfig) : FailsAs n s.txq (0, 0) (execOpen c s) (execOpen c (s.failing n)) := by
  refine .ite (.ite ?_ (.quiet rfl)) (.quiet rfl)
  cases c.role with
  | initiator => exact transmit_failsAs (s := latchConfig c s) hw isWholeFrame_setBytes fun _ => rfl
  | responder => exact .quiet rfl

theorem execClose_failsAs : FailsAs n s.txq s.seqs (execClose s) (execClose (s.failing n)) := by
  refine .ite (.ite ?_ (.quiet rfl)) (.quiet rfl)
  rw [State.failing_cfgRole]
  cases s.cfgRole with
  | initiator => exact transmit_failsAs (s := startClosing s) hw isWholeFrame_discBytes fun _ => rfl
  | responder => exact .quiet rfl

theorem execSend_failsAs (data : List Byte) : FailsAs n s.txq s.seqs (execSend data s) (execSend data (s.failing n)) := by
  refine .ite (.ite ?_ (.quiet rfl)) (.quiet rfl)
  rw [State.failing_bufSize, State.failing_txBuf]
  cases bufWriteRun s.bufSize s.txBuf 0 data with
  | some m =>
    exact sendFrame_failsAs (s := { s with resultValid := false, txBuf := m, txLen := data.length, retryCount := 0 }) hw
  | none => exact .fault

omit hw in
/-- RECEIVE sends nothing (R250). -/
theorem execReceive_failsAs : FailsAs n s.txq s.seqs (execReceive s) (execReceive (s.failing n)) :=
  .ite (.ite (.quiet rfl) (.quiet rfl)) (.quiet rfl)

/-- No command but OPEN changes a sequence bit before its Tx. -/
theorem exec_command_failsAs {i : Instr} (hi : i.isFrame = false) : ∃ bits, ((∀ c, i ≠ .openCmd c) → bits = s.seqs) ∧
    FailsAs n s.txq bits (exec i s) (exec i (s.failing n)) := by
  cases i with
  | openCmd c => exact ⟨_, fun h => absurd rfl (h c), execOpen_failsAs hw c⟩
  | sendCmd data => exact ⟨_, fun _ => rfl, execSend_failsAs hw data⟩
  | receiveCmd => exact ⟨_, fun _ => rfl, execReceive_failsAs⟩
  | closeCmd => exact ⟨_, fun _ => rfl, execClose_failsAs hw⟩
  | setFrame | uaFrame | discFrame | i0Frame _ | i1Frame _ | rr0Frame | rr1Frame | rej0Frame | rej1Frame =>
    simp [Instr.isFrame] at hi

theorem eventCmd_failsAs : ∃ bits,
    ((∀ r c, s.port.head? = some r → decodeCommand r ≠ .openCmd c) → bits = s.seqs) ∧
      FailsAs n s.txq bits (eventCmd s) (eventCmd (s.failing n)) := by
  unfold eventCmd
  rw [State.failing_port]
  cases s.port with
  | nil => exact ⟨_, fun _ => rfl, .quiet rfl⟩
  | cons r q =>
    obtain ⟨bits, hbits, h⟩ := exec_command_failsAs (n := n) (s := { s with port := q }) hw (isFrame_decodeCommand r)
    exact ⟨bits, fun ho => hbits fun c => ho r c rfl, .ite h (.quiet rfl)⟩

/-! ### The timer -/

theorem timeoutOpen_failsAs : FailsAs n s.txq s.seqs (timeoutOpen s) (timeoutOpen (s.failing n)) :=
  .ite (.quiet rfl) (transmit_failsAs (s := countRetry s) hw isWholeFrame_setBytes fun _ => rfl)

theorem timeoutClose_failsAs : FailsAs n s.txq s.seqs (timeoutClose s) (timeoutClose (s.failing n)) :=
  .ite (.quiet rfl) (transmit_failsAs (s := countRetry s) hw isWholeFrame_discBytes fun _ => rfl)

theorem timeoutSend_failsAs : FailsAs n s.txq s.seqs (timeoutSend s) (timeoutSend (s.failing n)) :=
  .ite (.quiet rfl) (sendFrame_failsAs (s := countRetry s) hw)

theorem timeoutRule_failsAs : FailsAs n s.txq s.seqs (timeoutRule s) (timeoutRule (s.failing n)) := by
  unfold timeoutRule
  rw [State.failing_phase]
  cases s.phase with
  | openIWaitUa => exact timeoutOpen_failsAs hw
  | closeIWaitDisc => exact timeoutClose_failsAs hw
  | sendWaitReply => exact timeoutSend_failsAs hw
  | idle | openRWaitSet | recv | closeRWaitDisc | closeRWaitUa => exact .quiet rfl

theorem tick_failsAs : FailsAs n s.txq s.seqs (tick s) (tick (s.failing n)) :=
  .ite (.ite (timeoutRule_failsAs (s := disarm s) hw) (.quiet rfl)) (.quiet rfl)

end

/-- Settles O37: the rules of the three events part at their one Tx, and the failing side is a channel error (R316). -/
theorem failedWriteIsAChannelError : Obligations.FailedWriteIsAChannelError := by
  intro e s t n he hw ht
  have hrule : ∃ bits, ((∀ r c, e = .cmd → s.port.head? = some r → decodeCommand r ≠ .openCmd c) → bits = s.seqs) ∧
      FailsAs n s.txq bits (runEvent e s) (runEvent e (s.failing n)) := by
    rcases he with rfl | rfl | rfl
    · obtain ⟨bits, hbits, h⟩ := eventCmd_failsAs (n := n) hw
      exact ⟨bits, fun hk => hbits fun r c => hk r c rfl, h⟩
    · exact ⟨_, fun _ => rfl, eventRx_failsAs hw⟩
    · exact ⟨_, fun _ => rfl, tick_failsAs hw⟩
  obtain ⟨bits, hbits, h⟩ := hrule
  refine (h t ht).imp_right ?_
  rintro ⟨f, v, hf, hq, hv, hu⟩
  exact ⟨f, _, hf, hq, hu, rfl, rfl, rfl, rfl, rfl, rfl, rfl, rfl, rfl, fun hk => Prod.mk.inj (hv.trans (hbits hk))⟩

end Sys2Proof.Machine
end

section
/-! PROOFS. A SEND under REJs alone: each one sends its frame again, and none of them counts as a retry (R225, R356). -/

namespace Sys2Proof.Machine

/-- The sender after a REJ of its frame, with the payload p sent again (R225): these events and bytes are still to come. -/
def State.afterRej (p : List Byte) (rest : List Event) (q : List Byte) (s : State) : State :=
  { arm s with
    agenda := rest, rxq := q, txq := s.txq ++ encodeI ADDR (C_I s.nextSeq) p, recState := .idle, recCtrl := C_REJ s.nextSeq }

/-- The step that takes a REJ of the frame in flight. -/
theorem step_resends_on_rej {p q : List Byte} {s : State} {rest : List Event} (hp : s.phase = .sendWaitReply)
    (hr : s.recState = .idle ∨ s.recState = .termSeen) (ht : s.txPayload = some p) (hw : s.writeFate = none)
    (hc : s.testChannel = none) (ha : s.agenda = .frame :: rest) (hq : s.rxq = rejBytes s.nextSeq ++ q) :
    step s = .next (s.afterRej p rest q) := by
  rw [step_of_frame (isFrame_rejInstr s.nextSeq) ha hc (by rw [hq, encodeWire_rejInstr])]
  exact exec_rejInstr_resends (s := { s with agenda := rest, rxq := q }) hp hr ht hw

/-- Settles O35, by induction on the number of REJs: after each the sender waits as before, its frame sent once more. -/
theorem nacksNeverEndASend : Obligations.NacksNeverEndASend := by
  intro k
  induction k with
  | zero =>
    intro p s rest q hp _ _ _ _ ha hq
    exact ⟨s, rfl, by simp [copies], hp, rfl, rfl, rfl, by simpa [copies] using hq, by simpa using ha⟩
  | succ k ih =>
    intro p s rest q hp hr ht hw hc ha hq
    rw [copies, List.append_assoc] at hq
    have hstep := step_resends_on_rej hp hr ht hw hc ha hq
    obtain ⟨t, hrun, htx, hkept⟩ := ih p
      (s.afterRej p (List.replicate k .frame ++ rest) (copies k (rejBytes s.nextSeq) ++ q))
      rest q hp (.inl rfl) ht hw hc rfl rfl
    refine ⟨t, (steps_succ hstep).trans hrun, ?_, hkept⟩
    rw [htx, copies, ← List.append_assoc]
    rfl

end Sys2Proof.Machine
end

section
/-! PROOFS. What ends the wait of a phase without a timer: a byte, ChErr or Reset, and of the bytes only the closing TERM of an
awaited frame (R184, R357). -/

namespace Sys2Proof.Machine

/-! ### The byte -/

section
variable {b : Byte} {s : State}

/-- In the phases that await a supervisory frame only the byte that completes one changes the phase (R151, R160). -/
theorem rxByte_scan_ends {t : State} (h : s.Inv) (hi : s.phase ≠ .idle) (hr : s.phase ≠ .recv) (hb : rxByte b s = .next t)
    (hne : t.phase ≠ s.phase) : s.recState = .bccSeen ∧ b = TERM := by
  obtain ⟨-, -, hdone, -⟩ := recNext_facts (keyOf s.phase s.nextSeq) b s.recState s.recCtrl
    fun hc => h.control.ctrlInKey (hc.imp_right .inl)
  have hd : (recNext (keyOf s.phase s.nextSeq) b s.recState s.recCtrl).1 = .done := by
    by_contra hd
    rw [rxByte_scan b s hi hr hd] at hb
    exact hne (Host.Outcome.next.inj hb ▸ rfl)
  obtain ⟨hbcc, hterm, -⟩ := hdone hd
  exact ⟨hbcc, hterm⟩

theorem bodyMalformed_eq_false : s.bodyMalformed = false ↔ s.rxOvf = false ∧ 0 < s.rxLen := by
  simp [State.bodyMalformed, Nat.pos_iff_ne_zero]

theorem storeByte_phase (d : Byte) : Leads (fun t => t.phase = s.phase) (storeByte d s) := by
  unfold storeByte
  split
  · split
    · exact .next rfl
    · exact .fault
  · exact .next rfl

theorem endOfFrame_phase : Leads (fun t => t.phase = s.phase ∨ s.rxOvf = false ∧ 0 < s.rxLen) (endOfFrame s) := by
  cases hm : s.bodyMalformed with
  | true =>
    rw [endOfFrame_malformed hm]
    exact .next (.inl rfl)
  | false => exact fun _ _ => .inr (bodyMalformed_eq_false.mp hm)

/-- This byte closes a body that is judged by its BCC2: a TERM that is not escaped, after a body that fits (R259). -/
def State.ClosesBody (b : Byte) (s : State) : Prop := b = TERM ∧ s.rxEsc = false ∧ s.rxOvf = false ∧ 0 < s.rxLen

theorem rxBody_phase : Leads (fun t => t.phase = s.phase ∨ s.ClosesBody b) (rxBody b s) := by
  unfold rxBody
  split_ifs with he _ hb
  · exact .next (.inl rfl)
  · exact (storeByte_phase _).imp fun _ => .inl
  · exact endOfFrame_phase.imp fun _ hf => hf.imp_right fun hf => ⟨hb, by simpa using he, hf⟩
  · exact .next (.inl rfl)
  · exact (storeByte_phase _).imp fun _ => .inl

/-- In P_RECV only the end of a body can change the phase (R251, R262). -/
theorem rxRecv_phase : Leads (fun t => t.phase = s.phase ∨ s.recState = .body ∧ s.ClosesBody b) (rxRecv b s) := by
  unfold rxRecv
  split
  case h_4 =>
    split_ifs
    · exact .next (.inl rfl)
    · exact .next (.inl rfl)
  case h_5 hbody => exact rxBody_phase.imp fun _ hf => hf.imp_right fun hf => ⟨hbody, hf⟩
  all_goals exact .next (.inl rfl)

/-- A byte that changes the phase of a running operation closes an awaited frame (R184, R357). -/
theorem rxByte_ends_wait {t : State} (h : s.Inv) (hi : s.phase ≠ .idle) (hb : rxByte b s = .next t)
    (hne : t.phase ≠ s.phase) : b = TERM ∧ s.recCtrl ∈ keyOf s.phase s.nextSeq ∧
      (s.recState = .bccSeen ∨ s.recState = .body ∧ s.rxEsc = false ∧ s.rxOvf = false ∧ 0 < s.rxLen) := by
  by_cases hr : s.phase = .recv
  · rw [rxByte, hr] at hb
    obtain ⟨hbody, hterm, hclose⟩ := (rxRecv_phase t hb).resolve_left hne
    exact ⟨hterm, h.control.ctrlInKey (.inr (.inr hbody)), .inr ⟨hbody, hclose⟩⟩
  · obtain ⟨hbcc, hterm⟩ := rxByte_scan_ends h hi hr hb hne
    exact ⟨hterm, h.control.ctrlInKey (.inr (.inl hbcc)), .inl hbcc⟩

end

/-! ### The event -/

/-- The four phases without a timer are those of a running operation whose timer is off (R46 (b), R357). -/
theorem running_and_untimed {p : Phase} (hp : p = .openRWaitSet ∨ p = .recv ∨ p = .closeRWaitDisc ∨ p = .closeRWaitUa) :
    p ≠ .idle ∧ p.timed = false := by
  rcases hp with rfl | rfl | rfl | rfl <;> exact ⟨nofun, rfl⟩

/-- With the timer off only these four events can change the phase of a running operation. -/
theorem runEvent_ends_wait {e : Event} {s t : State} (hi : s.phase ≠ .idle) (ht : s.timerArmed = false)
    (h : runEvent e s = .next t) (hne : t.phase ≠ s.phase) : e = .rx ∨ e = .frame ∨ e = .chErr ∨ e = .reset := by
  cases e with
  | rx | frame | chErr | reset => simp
  | cmd =>
    rw [runEvent, eventCmd_of_running hi] at h
    exact absurd (Host.Outcome.next.inj h ▸ rfl) hne
  | tick =>
    rw [runEvent, tick_of_off ht] at h
    exact absurd (Host.Outcome.next.inj h ▸ rfl) hne
  | present _ | line _ | drain _ | writeFate _ => exact absurd (Host.Outcome.next.inj h ▸ rfl) hne

/-- Settles O44: the event is one of the four, and the byte closes an awaited frame. -/
theorem timerlessPhasesEndOnlyByByteErrorOrReset : Obligations.TimerlessPhasesEndOnlyByByteErrorOrReset := by
  refine ⟨fun s t h hp hstep hne => ?_, fun b s t h hp hb hne => rxByte_ends_wait h (running_and_untimed hp).1 hb hne⟩
  obtain ⟨hi, huntimed⟩ := running_and_untimed hp
  cases ha : s.agenda with
  | nil =>
    rw [step_of_agenda_nil ha] at hstep
    exact absurd (Host.Outcome.next.inj hstep ▸ rfl) hne
  | cons e rest =>
    rw [step_of_agenda_cons ha] at hstep
    have he := runEvent_ends_wait (s := { s with agenda := rest }) hi (h.control.armedIff.trans huntimed) hstep hne
    simpa [State.NextEvent, ha] using he

end Sys2Proof.Machine
end

section
/-! PROOFS. The Reset event (R45, R350). -/

namespace Sys2Proof.Machine

/-- Settles O39: the step is the Reset event, which takes the same values whatever ran. -/
theorem resetGivesTheSpecifiedRegisters : Obligations.ResetGivesTheSpecifiedRegisters :=
  fun s rest ha => ⟨resetEvent { s with agenda := rest }, step_of_agenda_cons ha, rfl, rfl, rfl, rfl, rfl, rfl, rfl, rfl, rfl,
    rfl, rfl, rfl, rfl, rfl, rfl, rfl, rfl, fun _ => rfl, fun _ => rfl⟩

end Sys2Proof.Machine
end
